-- ==== Sys2Proof/Word.lean ====
section
/-! DEFINITION. The word types of the block: the 64-bit command and response words (30_encoding.md R90, R94) and the
byte of the register bus (20_memory.md R63). -/

namespace Sys2Proof

/-- A command word or a response word. -/
abbrev Word := BitVec 64

/-- One register of the controller's register space. -/
abbrev Byte := BitVec 8

end Sys2Proof
end

