-- ==== Sys2Proof/Syntax.lean ====
section
/-! DEFINITION. The eleven commands of 30_encoding.md R96, one constructor per row of the opcode table. Operands are in
the order of the textual form (R99). -/

namespace Sys2Proof

/-- A decoded command word. -/
inductive Instr where
  /-- CFGFREQ freq: hertz. -/
  | cfgfreq (freq : BitVec 16)
  /-- BOUND value: 32-bit two's complement. -/
  | bound (value : BitVec 32)
  /-- SETPWM ch, off, on: counter steps. -/
  | setpwm (ch : BitVec 8) (off : BitVec 16) (on : BitVec 16)
  /-- SETDUTY ch, duty: counter steps. -/
  | setduty (ch : BitVec 8) (duty : BitVec 16)
  /-- SETSERVO ch, pulse: microseconds. -/
  | setservo (ch : BitVec 8) (pulseUs : BitVec 16)
  /-- REGWR reg, byte. -/
  | regwr (reg : BitVec 8) (byte : BitVec 8)
  /-- REGRD reg. -/
  | regrd (reg : BitVec 8)
  /-- USCFG min, max and the STRICT flag: whole centimetres. -/
  | uscfg (minCm : BitVec 16) (maxCm : BitVec 16) (strict : Bool)
  /-- MEASURE nsig: significant figures. -/
  | measure (nsig : BitVec 8)
  /-- USREL. -/
  | usrel
  /-- SOS temp: centikelvin. -/
  | sos (tempCk : BitVec 16)
  deriving DecidableEq, Repr

end Sys2Proof
end

