-- ==== Sys2Proof/WellFormed.lean ====
section
/-! DEFINITION. The value constraints of 30_encoding.md R93 that a command word must meet beside its must-be-zero bits:
`freq ≥ 1` for CFGFREQ and `1 ≤ nsig ≤ 9` for MEASURE. -/

namespace Sys2Proof

/-- CFGFREQ's constraint: a positive frequency. -/
def freqLegal (freq : BitVec 16) : Bool := freq != 0

/-- MEASURE's constraint: 1 to 9 significant figures. -/
def nsigLegal (nsig : BitVec 8) : Bool := 1 ≤ nsig.toNat && nsig.toNat ≤ 9

/-- A command that some word of the `cmd` port carries. -/
def Instr.wf : Instr → Bool
  | .cfgfreq freq => freqLegal freq
  | .bound _ => true
  | .setpwm _ _ _ => true
  | .setduty _ _ => true
  | .setservo _ _ => true
  | .regwr _ _ => true
  | .regrd _ => true
  | .uscfg _ _ _ => true
  | .measure nsig => nsigLegal nsig
  | .usrel => true
  | .sos _ => true

end Sys2Proof
end

