-- ==== Sys2Proof/Decode.lean ====
section
/-! DEFINITION. The decoder of 30_encoding.md R97, total on every 64-bit word, and the encoder written from the same
format C64 (R91, R93). A word the decoder rejects is answered `IllegalCommand` (R98). -/

namespace Sys2Proof

/-- Why a word is illegal (R98 lists the four causes; all are answered alike). -/
inductive DecodeError where
  /-- `cmd[63:56]` is none of the eleven opcodes. -/
  | unusedOpcode
  /-- A must-be-zero bit is set. -/
  | reservedBits
  /-- CFGFREQ with `freq = 0`. -/
  | freqZero
  /-- MEASURE with `nsig` outside 1..9. -/
  | nsigRange
  deriving DecidableEq, Repr

/-! ## The fields of C64 (R91) -/

/-- `op`, bits 63:56. -/
def fieldOp (w : Word) : BitVec 8 := w.extractLsb' 56 8

/-- `a`, bits 55:48. -/
def fieldA (w : Word) : BitVec 8 := w.extractLsb' 48 8

/-- `b`, bits 47:32. -/
def fieldB (w : Word) : BitVec 16 := w.extractLsb' 32 16

/-- `c`, bits 31:0. -/
def fieldC (w : Word) : BitVec 32 := w.extractLsb' 0 32

/-- The low 16 bits of `c`. -/
def fieldC16 (w : Word) : BitVec 16 := w.extractLsb' 0 16

/-- The low 8 bits of `c`. -/
def fieldC8 (w : Word) : BitVec 8 := w.extractLsb' 0 8

/-! ## The opcode map (R96) -/

/-- One row of the opcode map. -/
structure OpcodeRow where
  mnemonic : String
  mask : Word
  pattern : Word
  deriving DecidableEq, Repr

def rowCfgfreq : OpcodeRow := ⟨"CFGFREQ", 0xFFFFFFFFFFFF0000, 0x0100000000000000⟩
def rowBound : OpcodeRow := ⟨"BOUND", 0xFFFFFFFF00000000, 0x0200000000000000⟩
def rowSetpwm : OpcodeRow := ⟨"SETPWM", 0xFF000000FFFF0000, 0x0300000000000000⟩
def rowSetduty : OpcodeRow := ⟨"SETDUTY", 0xFF00FFFFFFFF0000, 0x0400000000000000⟩
def rowSetservo : OpcodeRow := ⟨"SETSERVO", 0xFF00FFFFFFFF0000, 0x0500000000000000⟩
def rowRegwr : OpcodeRow := ⟨"REGWR", 0xFF00FFFFFFFFFF00, 0x0800000000000000⟩
def rowRegrd : OpcodeRow := ⟨"REGRD", 0xFF00FFFFFFFFFFFF, 0x0900000000000000⟩
def rowUscfg : OpcodeRow := ⟨"USCFG", 0xFFFE0000FFFF0000, 0x1000000000000000⟩
def rowMeasure : OpcodeRow := ⟨"MEASURE", 0xFF00FFFFFFFFFFFF, 0x1100000000000000⟩
def rowUsrel : OpcodeRow := ⟨"USREL", 0xFFFFFFFFFFFFFFFF, 0x1200000000000000⟩
def rowSos : OpcodeRow := ⟨"SOS", 0xFFFFFFFFFFFF0000, 0x1800000000000000⟩

/-- The eleven rows, in the order of R96. -/
def opcodeRows : List OpcodeRow :=
  [rowCfgfreq, rowBound, rowSetpwm, rowSetduty, rowSetservo, rowRegwr, rowRegrd, rowUscfg, rowMeasure, rowUsrel,
    rowSos]

/-- The opcode of a row: the top byte of its pattern. -/
def OpcodeRow.op (r : OpcodeRow) : BitVec 8 := fieldOp r.pattern

/-- Whether a word selects a row: `w AND mask = match`. -/
def OpcodeRow.selects (r : OpcodeRow) (w : Word) : Bool := w &&& r.mask == r.pattern

/-! ## Decoding (R97) -/

/-- Step 2 of R97: a must-be-zero bit set makes the word illegal; otherwise go on with the command. -/
def OpcodeRow.checked (r : OpcodeRow) (w : Word) (k : Except DecodeError Instr) : Except DecodeError Instr :=
  if r.selects w then k else .error .reservedBits

/-- Step 3 of R97 for CFGFREQ. -/
def decodeCfgfreq (w : Word) : Except DecodeError Instr :=
  if freqLegal (fieldC16 w) then .ok (.cfgfreq (fieldC16 w)) else .error .freqZero

/-- Step 3 of R97 for MEASURE. -/
def decodeMeasure (w : Word) : Except DecodeError Instr :=
  if nsigLegal (fieldA w) then .ok (.measure (fieldA w)) else .error .nsigRange

/-- The decoder: the row by opcode, then its must-be-zero bits, then its value constraint. -/
def decode (w : Word) : Except DecodeError Instr :=
  if fieldOp w = rowCfgfreq.op then rowCfgfreq.checked w (decodeCfgfreq w)
  else if fieldOp w = rowBound.op then rowBound.checked w (.ok (.bound (fieldC w)))
  else if fieldOp w = rowSetpwm.op then rowSetpwm.checked w (.ok (.setpwm (fieldA w) (fieldC16 w) (fieldB w)))
  else if fieldOp w = rowSetduty.op then rowSetduty.checked w (.ok (.setduty (fieldA w) (fieldC16 w)))
  else if fieldOp w = rowSetservo.op then rowSetservo.checked w (.ok (.setservo (fieldA w) (fieldC16 w)))
  else if fieldOp w = rowRegwr.op then rowRegwr.checked w (.ok (.regwr (fieldA w) (fieldC8 w)))
  else if fieldOp w = rowRegrd.op then rowRegrd.checked w (.ok (.regrd (fieldA w)))
  else if fieldOp w = rowUscfg.op then
    rowUscfg.checked w (.ok (.uscfg (fieldB w) (fieldC16 w) ((fieldA w).getLsbD 0)))
  else if fieldOp w = rowMeasure.op then rowMeasure.checked w (decodeMeasure w)
  else if fieldOp w = rowUsrel.op then rowUsrel.checked w (.ok .usrel)
  else if fieldOp w = rowSos.op then rowSos.checked w (.ok (.sos (fieldC16 w)))
  else .error .unusedOpcode

/-- The instruction the decoder reads from a row's bits, numbered as the opcode table numbers them; bits from `nbits`
up are 0. -/
def decodeTableWord (nbits w : Nat) : Option Instr :=
  (decode (BitVec.ofNat 64 (w % 2 ^ nbits))).toOption

/-! ## Encoding (R91, R93) -/

/-- A C64 word from its four fields. -/
def packC64 (op a : BitVec 8) (b : BitVec 16) (c : BitVec 32) : Word :=
  op.setWidth 64 <<< 56 ||| a.setWidth 64 <<< 48 ||| b.setWidth 64 <<< 32 ||| c.setWidth 64

/-- The word of a command. -/
def encode : Instr → Word
  | .cfgfreq freq => packC64 0x01 0 0 (freq.setWidth 32)
  | .bound value => packC64 0x02 0 0 value
  | .setpwm ch off on => packC64 0x03 ch on (off.setWidth 32)
  | .setduty ch duty => packC64 0x04 ch 0 (duty.setWidth 32)
  | .setservo ch pulseUs => packC64 0x05 ch 0 (pulseUs.setWidth 32)
  | .regwr reg byte => packC64 0x08 reg 0 (byte.setWidth 32)
  | .regrd reg => packC64 0x09 reg 0 0
  | .uscfg minCm maxCm strict => packC64 0x10 (BitVec.ofBool strict |>.setWidth 8) minCm (maxCm.setWidth 32)
  | .measure nsig => packC64 0x11 nsig 0 0
  | .usrel => packC64 0x12 0 0 0
  | .sos tempCk => packC64 0x18 0 0 (tempCk.setWidth 32)

end Sys2Proof
end

