-- ==== Sys2Proof/Config.lean ====
section
/-! DEFINITION. What an implementation fixes (the parameters of 00_scope.md R5), what the environment supplies (R12),
and the free values: constants with no body, so that nothing in Lean can evaluate them or prove a value of them. -/

namespace Sys2Proof.Config

/-! ## Constants of R5 -/

/-- `COUNTER_STEPS`. -/
def counterSteps : Nat := 4096

/-- `RESTART_MASK`: "its high bit set to trigger restart". -/
def restartMask : Byte := 0x80

/-- `SERVO_PERIOD_US`: a fixed 50 Hz period. -/
def servoPeriodUs : Nat := 20000

/-- `T_DEFAULT_CK`: 298.15 K. -/
def tDefaultCk : BitVec 16 := 29815

/-- `SOS_COEFF` squared, in (mm/s)² per centikelvin: `2005² = 4 020 025` (R231). -/
def sosCoeffSq : Nat := 2005 * 2005

/-! ## The parameters of R5 -/

/-- One implementation of the block. A model takes each of these as an argument (R5); here the machine's state carries
them, unchanged by every step. -/
structure Params where
  /-- `OSC_HZ` -/
  oscHz : Nat
  /-- `NCH` -/
  nch : Nat
  /-- `RES` -/
  res : Nat
  /-- `DEVADDR` -/
  devAddr : Byte
  /-- `PWM_DEV_ADDR` -/
  pwmDevAddr : Byte
  /-- `REG_MODE` -/
  regMode : Byte
  /-- `REG_PRESCALE` -/
  regPrescale : Byte
  /-- `REG_CH_BASE` -/
  regChBase : Byte
  /-- `SLEEP_MASK` -/
  sleepMask : Byte
  /-- `PWM_STRICT` -/
  pwmStrict : Bool
  /-- `SETTLE_TICKS` -/
  settleTicks : BitVec 64
  /-- `TRIG_TICKS` -/
  trigTicks : BitVec 64
  /-- `US_SETTLE_TICKS`; no rule reads it (D30). -/
  usSettleTicks : Nat
  /-- `SOS_DEFAULT_MM_S` -/
  sosDefaultMmS : BitVec 32
  /-- `THERM_PRESENT` -/
  thermPresent : Bool
  /-- `SHARED_PIN` -/
  sharedPin : Bool
  /-- `FALL_DEADLINE_FIX` -/
  fallDeadlineFix : Bool
  /-- `DEFAULT_FREQ_HZ`; used by boot software only (D37). -/
  defaultFreqHz : BitVec 16
  deriving DecidableEq, Repr

/-- The "value" column of R5. The OPEN parameters take the suggested values or the conventions of 95_test_vectors.md
(DESIGN CHOICE, unsafe, log 2); the register numbers are the spec's own from general knowledge (PRESUMED, log 19). No statement
rests on this instance: `step` and `exec` read the parameters from the state. -/
def defaults : Params where
  oscHz := 25000000
  nch := 16
  res := 12
  devAddr := 0x40
  pwmDevAddr := 0x40
  regMode := 0x00
  regPrescale := 0xFE
  regChBase := 0x06
  sleepMask := 0x10
  pwmStrict := false
  settleTicks := 125000
  trigTicks := 250
  usSettleTicks := 0
  sosDefaultMmS := 346204
  thermPresent := false
  sharedPin := false
  fallDeadlineFix := false
  defaultFreqHz := 50

/-! ## The environment of R12 and R36 -/

/-- The input pins of the block at one tick. -/
structure Inputs where
  /-- `rst` -/
  rst : Bool
  /-- `cmd_valid` -/
  cmdValid : Bool
  /-- `cmd` -/
  cmd : Word
  /-- `echo_in(t)` -/
  echo : Bool
  /-- `temp_in(t)`, centikelvin -/
  temp : BitVec 16
  /-- `hw_err(t)` -/
  hwErr : Bool
  deriving DecidableEq, Repr, Inhabited

/-- The environment's draw for one register access: `bus_lat(k)` and `bus_fail(k)`. -/
structure BusDraw where
  /-- The latency in ticks; 0 stands for 1, so that every draw is a legal one (R12: an integer of at least 1). -/
  lat : BitVec 64
  /-- Whether the access fails. -/
  fail : Bool
  deriving DecidableEq, Repr, Inhabited

/-! ## Free values (DESIGN CHOICE: each stands for a draw that the spec leaves to the environment) -/

/-- The input pins at tick number `n`, where the state lists none (safe, log 3). -/
opaque freeInputs : Nat → Inputs

/-- The draw of register access number `n`, where the state lists none (safe, log 4). -/
opaque freeBusDraw : Nat → BusDraw

/-- `PRESCALE` after the reset at draw number `n`: "unspecified, any 8-bit value" (R29, R43; safe, log 5). -/
opaque freePrescale : Nat → Byte

/-- `PSC` after tick number `n` while `TIMING_CORRUPT = 1` (R163; safe, log 7). -/
opaque freePsc : Nat → Byte

/-- `STEP` after tick number `n` while `TIMING_CORRUPT = 1` (R163; safe, log 7). -/
opaque freeStep : Nat → BitVec 12

/-- The value of a 64-bit register for an exact result that it cannot hold: no rule gives one (R8, R233; safe, log 24). -/
opaque freeFit64 : Nat → BitVec 64

/-- `REXP` for an exponent that 8 bits cannot hold: no rule gives one (R8, R235; safe, log 24). -/
opaque freeFitRexp : Int → BitVec 8

/-- `pwm_out[ch]` at tick number `n` where the spec leaves it unspecified (R163, R168; safe, log 8). -/
opaque freePwmOut : Nat → Nat → Bool

end Sys2Proof.Config
end

