-- ==== Sys2Proof/Machine/State.lean ====
section
/-! DEFINITION. The complete state of the block (10_state.md R20), grouped by the agent that owns it, with the model's
own fields for what R20 calls arguments of the step relation (the parameters, the environment); the reasons a step can
stop; the state after reset (R310). -/

namespace Sys2Proof.Machine

/-- No step of the block faults: every error the spec describes is a response after which the block goes on
(60_exceptions.md R280, R290), so this type has no constructor (log 20). -/
inductive Fault where
  deriving DecidableEq, Repr

/-- Why the model refuses to step. -/
inductive Refusal where
  /-- Raised by `exec` alone, for an instruction without a meaning; no arm does. Safe. -/
  | notModelled (mnemonic : String)
  /-- Raised by `step` alone, when the parameter set breaks a constraint: "A model refuses a parameter set that breaks
  one of these" (00_scope.md R7). Safe. -/
  | badParameters
  deriving DecidableEq, Repr

/-- `PHASE` (R23). -/
inductive Phase where
  | idle
  | cfRead | cfSleep | cfPresc | cfRestore | cfSettle | cfRestart
  | spW0 | spW1 | spW2 | spW3
  | rgWr | rgRd
  | usTrig | usRise | usFall | usRearm
  deriving DecidableEq, Repr

/-- `TRIG_MODE` (R35). -/
inductive PinMode where
  | hiz | out | inp
  deriving DecidableEq, Repr

/-- `ECHO_MODE` (R35). -/
inductive EchoMode where
  | hiz | inp
  deriving DecidableEq, Repr

/-- `OUTCOME` (R40). -/
inductive MeasureOutcome where
  | none | ok | timeout | hwErr
  deriving DecidableEq, Repr

/-- The status codes (60_exceptions.md R280). -/
inductive Status where
  | ok
  | configurationError
  | rangeError
  | transportError
  | timeoutCondition
  | unimplementedCapability
  | illegalCommand
  | channelRange
  | notConfigured
  | prescaleRange
  deriving DecidableEq, Repr

/-- The result kinds (30_encoding.md R95). -/
inductive Kind where
  | none | int | dist | absent
  deriving DecidableEq, Repr

/-- The register space's stored bytes: register address and byte, canonical (`Memory.wf`). -/
abbrev Memory := List Host.Cell

/-- The response registers (R25). -/
structure Resp where
  /-- `RESP_VALID` -/
  valid : Bool
  /-- `RSTAT` -/
  rstat : BitVec 8
  /-- `RKIND` -/
  rkind : BitVec 8
  /-- `REXP`, two's complement -/
  rexp : BitVec 8
  /-- `RVAL` -/
  rval : BitVec 32
  deriving DecidableEq, Repr

/-- The PWM driver's registers (R26, R27). -/
structure Drv where
  /-- `FREQ` -/
  freq : BitVec 16
  /-- `OLDMODE` -/
  oldMode : Byte
  /-- `PRE` -/
  pre : Byte
  /-- `WADDR` -/
  waddr : Byte
  /-- `WDATA[0]` -/
  wdata0 : Byte
  /-- `WDATA[1]` -/
  wdata1 : Byte
  /-- `WDATA[2]` -/
  wdata2 : Byte
  /-- `WDATA[3]` -/
  wdata3 : Byte
  deriving DecidableEq, Repr

/-- The PWM controller's registers (R28 to R32). -/
structure Ctl where
  /-- `MODE` -/
  mode : Byte
  /-- `PRESCALE` -/
  prescale : Byte
  /-- `CHREG`, keyed by register address -/
  chreg : Memory
  /-- `PSC` -/
  psc : Byte
  /-- `STEP` -/
  step : BitVec 12
  /-- `TIMING_CORRUPT` -/
  timingCorrupt : Bool
  deriving DecidableEq, Repr

/-- The ultrasonic sequencer's registers (R34 to R40). -/
structure Seq where
  /-- `US_READY` -/
  usReady : Bool
  /-- `US_MIN` -/
  usMin : BitVec 16
  /-- `US_MAX` -/
  usMax : BitVec 16
  /-- `US_STRICT` -/
  usStrict : Bool
  /-- `TRIG_MODE` -/
  trigMode : PinMode
  /-- `ECHO_MODE` -/
  echoMode : EchoMode
  /-- `TRIG` -/
  trig : Bool
  /-- `TEMP` -/
  temp : BitVec 16
  /-- `V` -/
  v : BitVec 32
  /-- `TO` -/
  timeout : BitVec 64
  /-- `NOW` -/
  now : BitVec 64
  /-- `DEADLINE` -/
  deadline : BitVec 64
  /-- `PSTART` -/
  pstart : BitVec 64
  /-- `PEND` -/
  pend : BitVec 64
  /-- `NSIG` -/
  nsig : BitVec 4
  /-- `OUTCOME` -/
  outcome : MeasureOutcome
  deriving DecidableEq, Repr

/-- The model's own fields for the environment of 00_scope.md R12 (log 3, log 4). No register of the block. -/
structure Env where
  /-- The input pins at the tick about to be executed. -/
  pins : Config.Inputs
  /-- The input pins of the ticks after it, as far as listed; then they are free draws. -/
  script : List Config.Inputs
  /-- The number of ticks executed: the index of every free draw. -/
  drawNo : Nat
  /-- The draws of the register accesses numbered 0, 1, … since reset, as far as listed; then they are free draws. -/
  busDraws : List Config.BusDraw
  /-- The index of the free draw of access number 0 since reset. -/
  busBase : Nat
  deriving DecidableEq, Repr

/-- The state of the block. -/
structure State where
  /-- The parameters of 00_scope.md R5: fixed, no step writes them (log 2). -/
  params : Config.Params
  /-- The environment of 00_scope.md R12 (log 3). -/
  env : Env
  /-- `TIME` (R21) -/
  time : BitVec 64
  /-- `PHASE` (R23) -/
  phase : Phase
  /-- `CMD` (R22) -/
  cmd : Word
  /-- `WAITCNT` (R24) -/
  waitCnt : BitVec 64
  /-- `ACCNO` (R41) -/
  accno : Nat
  /-- `RESP_VALID`, `RSTAT`, `RKIND`, `REXP`, `RVAL` (R25) -/
  resp : Resp
  /-- The driver's registers (R26, R27) -/
  drv : Drv
  /-- The controller's registers (R28 to R32) -/
  ctl : Ctl
  /-- The ultrasonic sequencer's registers (R34 to R40) -/
  seq : Seq
  deriving DecidableEq, Repr

/-! ## Reset (70_reset_and_hazards.md R310, the "reset" column of R20) -/

/-- The response registers after reset. -/
def Resp.reset : Resp := ⟨false, 0, 0, 0, 0⟩

/-- The driver's registers after reset. -/
def Drv.reset : Drv := ⟨0, 0, 0, 0, 0, 0, 0, 0⟩

/-- The controller's registers after a reset that draws `prescale` for `PRESCALE`. -/
def Ctl.reset (prescale : Byte) : Ctl := ⟨0x00, prescale, [], 0, 0, false⟩

/-- The ultrasonic sequencer's registers after reset. -/
def Seq.reset : Seq := ⟨false, 0, 0, false, .hiz, .hiz, false, 0, 0, 0, 0, 0, 0, 0, 0, .none⟩

/-- Every register at its reset value, for any parameters, any environment and any draw for `PRESCALE`. -/
def State.resetWith (p : Config.Params) (e : Env) (prescale : Byte) : State where
  params := p
  env := e
  time := 0
  phase := .idle
  cmd := 0
  waitCnt := 0
  accno := 0
  resp := Resp.reset
  drv := Drv.reset
  ctl := Ctl.reset prescale
  seq := Seq.reset

/-- An environment of which nothing is listed: every input is a free draw. -/
def Env.free : Env := ⟨Config.freeInputs 0, [], 0, [], 0⟩

/-- The machine right after reset: the default parameters, `PRESCALE` and every input free. -/
def State.reset : State := State.resetWith Config.defaults Env.free (Config.freePrescale 0)

end Sys2Proof.Machine
end

