-- ==== Sys2Proof/Machine/Operands.lean ====
section
/-! DEFINITION. The operand forms of the commands: the parameter check (00_scope.md R7), the register codec
(40_pwm_driver.md R120 to R122), the prescale function (R123), duty bounding (R128) and the servo conversion (R135). -/

namespace Sys2Proof.Machine

open Sys2Proof

/-! ## Parameters -/

/-- `MAX_BITS = 2^RES − 1` (R6). -/
def maxBits (p : Config.Params) : Nat := 2 ^ p.res - 1

/-- Whether an address lies in the channel register block (R6, R61). -/
def isChannelReg (p : Config.Params) (addr : Byte) : Bool :=
  p.regChBase.toNat ≤ addr.toNat && addr.toNat < p.regChBase.toNat + 4 * p.nch

/-- `SLEEP_MASK` has exactly one bit set and is not 0x80 (R7). -/
def sleepMaskOk (m : Byte) : Bool :=
  [0x01#8, 0x02#8, 0x04#8, 0x08#8, 0x10#8, 0x20#8, 0x40#8].contains m

/-- The ranges of R5's type column and R7's lower bounds (log 11). -/
def paramRangesOk (p : Config.Params) : Bool :=
  decide (1 ≤ p.oscHz ∧ (1 ≤ p.nch ∧ p.nch ≤ 62) ∧ (1 ≤ p.res ∧ p.res ≤ 16)
    ∧ p.trigTicks ≠ 0 ∧ p.settleTicks ≠ 0 ∧ p.sosDefaultMmS ≠ 0 ∧ p.defaultFreqHz ≠ 0)

/-- The register map's constraints (R7): the channel block fits below 0x100 and does not meet the two other registers,
which differ; `SLEEP_MASK` is one bit and not bit 7. -/
def paramMapOk (p : Config.Params) : Bool :=
  decide (p.regChBase.toNat + 4 * p.nch - 1 ≤ 255
    ∧ isChannelReg p p.regMode = false ∧ isChannelReg p p.regPrescale = false
    ∧ p.regMode ≠ p.regPrescale ∧ sleepMaskOk p.sleepMask = true)

/-- The constraints a parameter set must meet (R7). -/
def paramsOk (p : Config.Params) : Bool := paramRangesOk p && paramMapOk p

/-! ## The register codec -/

/-- `split16`: the low byte and the high byte (R120). -/
def split16 (v : BitVec 16) : Byte × Byte := (v.extractLsb' 0 8, v.extractLsb' 8 8)

/-- `join16 = low OR (high << 8)` (R121). -/
def join16 (low high : Byte) : BitVec 16 := low.setWidth 16 ||| high.setWidth 16 <<< 8

/-- `ChBase(ch)` (R122); the commands check `ch < NCH` first. -/
def chBase (p : Config.Params) (ch : Nat) : Byte := BitVec.ofNat 8 (p.regChBase.toNat + 4 * ch)

/-! ## Arithmetic primitives (00_scope.md R9) -/

/-- `RoundHalfUp(num / den) = floor(num / den + 1/2)`. -/
def roundHalfUp (num den : Nat) : Nat := (2 * num + den) / (2 * den)

/-! ## Storing exact results (00_scope.md R8) -/

/-- An exact result in a 64-bit register; where it does not fit, a free value (log 24). -/
def fit64 (n : Nat) : BitVec 64 := if n < 2 ^ 64 then BitVec.ofNat 64 n else Config.freeFit64 n

/-- An exact exponent in `REXP`, two's complement; where it does not fit, a free value (log 24). -/
def fitRexp (e : Int) : BitVec 8 := if -128 ≤ e ∧ e ≤ 127 then BitVec.ofInt 8 e else Config.freeFitRexp e

/-! ## Operands of the PWM commands -/

/-- `Presc(f) = RoundHalfUp(OSC_HZ / (4096 f)) − 1` (R123). -/
def presc (oscHz f : Nat) : Int := (roundHalfUp oscHz (Config.counterSteps * f) : Int) - 1

/-- Whether a prescale fits the register (R125). -/
def prescFits (p : Int) : Bool := 0 ≤ p && p ≤ 255

/-- `abs(value)` of BOUND's signed operand (R128). -/
def magnitude (value : BitVec 32) : Nat := value.toInt.natAbs

/-- `steps = (pulse_us * 4096) div 20000` (R135). -/
def servoSteps (pulseUs : BitVec 16) : BitVec 16 :=
  BitVec.ofNat 16 (pulseUs.toNat * Config.counterSteps / Config.servoPeriodUs)

end Sys2Proof.Machine
end

