-- ==== Sys2Proof/Machine/Flags.lean ====
section
/-! DEFINITION. The block's flag-like bits (10_state.md R42): the fields of `MODE` (R28) and the bytes CFGFREQ writes to
it (40_pwm_driver.md R126). There are no arithmetic flags and no condition codes. -/

namespace Sys2Proof.Machine

open Sys2Proof

/-- Whether a mode byte has the sleep bit set (R28). -/
def sleepBit (p : Config.Params) (mode : Byte) : Bool := mode &&& p.sleepMask != 0

/-- Whether a byte written to `REG_MODE` triggers a restart: its high bit (R28, R162). -/
def restartBit (v : Byte) : Bool := v.getLsbD 7

/-- What `REG_MODE` stores of a byte written to it: bit 7 is never stored (R162). -/
def storedMode (v : Byte) : Byte := v &&& 0x7F

/-- The mode byte of CFGFREQ's sleep write: the sleep bit set, every other bit as read (R126). -/
def sleepMode (p : Config.Params) (oldMode : Byte) : Byte := oldMode ||| p.sleepMask

/-- The mode byte of CFGFREQ's restart write: the high bit set (R126). -/
def restartMode (oldMode : Byte) : Byte := oldMode ||| Config.restartMask

/-- `MODE.SLEEP = 1`. -/
def Ctl.asleep (p : Config.Params) (c : Ctl) : Bool := sleepBit p c.mode

end Sys2Proof.Machine
end

