-- ==== Sys2Proof/Machine/Ops.lean ====
section
/-! DEFINITION. The named operations over the state: the register-space memory, the environment, the response and the
raising of an error (60_exceptions.md R290), the entry of a phase (10_state.md R24), the register bus (20_memory.md R64
to R70), the register write effects (41_frequency_divider.md R161 to R163), the pin modes (10_state.md R35) and reset
(70_reset_and_hazards.md R310). -/

namespace Sys2Proof.Machine

open Sys2Proof

/-! ## The register-space memory -/

/-- What an address with no entry reads as: the reset value of a channel register (R30) and what an unimplemented
address reads (R70). -/
def Memory.blank : Byte := 0x00

/-- The byte stored at a register address. -/
def Memory.read : Memory → Nat → Byte
  | [], _ => Memory.blank
  | (a, b) :: m, addr => if a = addr then b else Memory.read m addr

/-- Put a byte that is not the blank one at its place. -/
def Memory.insert : Memory → Nat → Byte → Memory
  | [], addr, v => [(addr, v)]
  | (a, b) :: m, addr, v =>
    if addr < a then (addr, v) :: (a, b) :: m
    else if addr = a then (addr, v) :: m
    else (a, b) :: Memory.insert m addr v

/-- Take an address's entry away. -/
def Memory.erase : Memory → Nat → Memory
  | [], _ => []
  | (a, b) :: m, addr => if a = addr then m else (a, b) :: Memory.erase m addr

/-- Store a byte, keeping the canonical form: the blank byte is stored by listing nothing. -/
def Memory.write (m : Memory) (addr : Nat) (v : Byte) : Memory :=
  if v = Memory.blank then m.erase addr else m.insert addr v

/-- The canonical form: addresses strictly rising and register addresses, no blank entry. -/
def Memory.wf : Memory → Bool
  | [] => true
  | (a, b) :: m => a < 256 && (b != Memory.blank && (m.all (fun c => a < c.1) && Memory.wf m))

/-! ## The environment -/

/-- The input pins at the tick being executed. -/
def State.inputs (s : State) : Config.Inputs := s.env.pins

/-- The environment at the next tick: the next listed pins, or a free draw. -/
def Env.advance (e : Env) : Env :=
  match e.script with
  | [] => { e with pins := Config.freeInputs (e.drawNo + 1), drawNo := e.drawNo + 1 }
  | i :: rest => { e with pins := i, script := rest, drawNo := e.drawNo + 1 }

/-- The environment after a reset: new pins, and new draws for the accesses, which are numbered from 0 again. The draw
of an access that the reset dropped is used up with it (log 16). -/
def Env.afterReset (e : Env) (accno : Nat) : Env :=
  { e.advance with busDraws := e.busDraws.drop (accno + 1), busBase := e.busBase + accno + 1 }

/-- The environment's draw for the access numbered `k` since reset. -/
def Env.busDraw (e : Env) (k : Nat) : Config.BusDraw :=
  (e.busDraws[k]?).getD (Config.freeBusDraw (e.busBase + k))

/-- `bus_lat(k)`: at least 1 (R12, R67). -/
def Env.busLat (e : Env) (k : Nat) : BitVec 64 := if (e.busDraw k).lat = 0 then 1 else (e.busDraw k).lat

/-- The length of the phase that makes the access numbered `ACCNO` (R67). -/
def State.busLat (s : State) : BitVec 64 := s.env.busLat s.accno

/-- Whether the access numbered `k` fails (R64 to R66). -/
def State.accessFails (s : State) (k : Nat) : Bool :=
  s.params.devAddr != s.params.pwmDevAddr || (s.env.busDraw k).fail

/-- Whether the access numbered `ACCNO` fails. -/
def State.busFails (s : State) : Bool := s.accessFails s.accno

/-! ## Response and errors -/

/-- The status codes (R280). -/
def statusCode : Status → BitVec 8
  | .ok => 0
  | .configurationError => 1
  | .rangeError => 2
  | .transportError => 3
  | .timeoutCondition => 4
  | .unimplementedCapability => 5
  | .illegalCommand => 6
  | .channelRange => 7
  | .notConfigured => 8
  | .prescaleRange => 9

/-- The result kinds (R95). -/
def kindCode : Kind → BitVec 8
  | .none => 0
  | .int => 1
  | .dist => 2
  | .absent => 3

/-- `respond(status, kind, exp, val)` (R94). -/
def State.respond (s : State) (st : Status) (k : Kind) (exp : BitVec 8) (val : BitVec 32) : State :=
  { s with resp := ⟨true, statusCode st, kindCode k, exp, val⟩, phase := .idle }

/-- `respond(OK, NONE, 0, 0)`. -/
def State.respondDone (s : State) : State := s.respond .ok .none 0 0

/-- `respond(OK, INT, 0, val)`. -/
def State.respondInt (s : State) (val : BitVec 32) : State := s.respond .ok .int 0 val

/-- `raise <Status>(info)`: the one way an error is taken (R290). -/
def State.raise (s : State) (st : Status) (info : BitVec 32) : State := s.respond st .none 0 info

/-- The front end takes a command word: `CMD <- cmd`, `RESP_VALID <- 0` (R22). -/
def State.latch (s : State) (w : Word) : State :=
  { s with cmd := w, resp := { s.resp with valid := false } }

/-! ## Phases (R24) -/

/-- Enter a phase that lasts `n` ticks. -/
def State.enter (s : State) (ph : Phase) (n : BitVec 64) : State := { s with phase := ph, waitCnt := n }

/-- Enter a bus-access phase: it lasts `bus_lat` of the access it will make. -/
def State.enterBus (s : State) (ph : Phase) : State := s.enter ph s.busLat

/-- Move to a phase without a preset length. -/
def State.goto (s : State) (ph : Phase) : State := { s with phase := ph }

/-- One tick of a phase with a length: its action at the last tick, else one tick less remains. -/
def State.timed (s : State) (act : State → State) : State :=
  if s.waitCnt = 1 then act s else { s with waitCnt := s.waitCnt - 1 }

/-- The register accesses of the command performed before the one of this phase: the information word of a
TransportError (R283). -/
def accessesBefore : Phase → BitVec 32
  | .idle => 0
  | .cfRead => 0
  | .cfSleep => 1
  | .cfPresc => 2
  | .cfRestore => 3
  | .cfSettle => 4
  | .cfRestart => 4
  | .spW0 => 0
  | .spW1 => 1
  | .spW2 => 2
  | .spW3 => 3
  | .rgWr => 0
  | .rgRd => 0
  | .usTrig => 0
  | .usRise => 0
  | .usFall => 0
  | .usRearm => 0

/-! ## The register space -/

/-- The byte a read of a register address returns (R68, R70). -/
def Ctl.peek (p : Config.Params) (c : Ctl) (addr : Byte) : Byte :=
  if addr = p.regMode then c.mode
  else if addr = p.regPrescale then c.prescale
  else if isChannelReg p addr then c.chreg.read addr.toNat
  else 0x00

/-- A taken write to `REG_MODE` (R162). A restart zeroes the counters. -/
def Ctl.writeMode (c : Ctl) (v : Byte) : Ctl :=
  if restartBit v then { c with mode := storedMode v, psc := 0, step := 0 } else { c with mode := storedMode v }

/-- A taken write to `REG_PRESCALE` (R163). -/
def Ctl.writePrescale (p : Config.Params) (c : Ctl) (v : Byte) : Ctl :=
  if c.asleep p then { c with prescale := v } else { c with timingCorrupt := true }

/-- A taken write to a channel register (R161). -/
def Ctl.writeChannel (c : Ctl) (addr v : Byte) : Ctl := { c with chreg := c.chreg.write addr.toNat v }

/-- The effect of a register write by address (R69, R70). -/
def Ctl.poke (p : Config.Params) (c : Ctl) (addr v : Byte) : Ctl :=
  if addr = p.regMode then c.writeMode v
  else if addr = p.regPrescale then c.writePrescale p v
  else if isChannelReg p addr then c.writeChannel addr v
  else c

/-- The byte at a register address: the model's read of one byte. -/
def State.peek (s : State) (addr : Byte) : Byte := s.ctl.peek s.params addr

/-- One register access is counted, whether it fails or not (R41). -/
def State.countAccess (s : State) : State := { s with accno := s.accno + 1 }

/-- `raise TransportError` with the number of accesses performed before (R66, R283). -/
def State.transportError (s : State) : State := s.raise .transportError (accessesBefore s.phase)

/-- `BusRead(addr)`, then what the phase does with the byte (R64). -/
def State.busRead (s : State) (addr : Byte) (andThen : Byte → State → State) : State :=
  if s.busFails then s.countAccess.transportError else andThen (s.peek addr) s.countAccess

/-- `BusWrite(addr, v)`, then what the phase does next (R65). -/
def State.busWrite (s : State) (addr v : Byte) (andThen : State → State) : State :=
  if s.busFails then s.countAccess.transportError
  else andThen { s.countAccess with ctl := s.ctl.poke s.params addr v }

/-! ## The ranging pins (R35) -/

/-- `ECHO_MODE` on a shared pin mirrors `TRIG_MODE` (R35). -/
def mirrorMode : PinMode → EchoMode
  | .inp => .inp
  | .out => .hiz
  | .hiz => .hiz

/-- `TRIG_MODE <- m`; with a shared pin `ECHO_MODE` follows. -/
def Seq.setTrigMode (p : Config.Params) (q : Seq) (m : PinMode) : Seq :=
  { q with trigMode := m, echoMode := if p.sharedPin then mirrorMode m else q.echoMode }

/-- The pins armed: trigger an output driven low, and on two pins echo an input (R190, R192, R207). -/
def Seq.arm (p : Config.Params) (q : Seq) : Seq :=
  { q with trigMode := .out, trig := false, echoMode := if p.sharedPin then mirrorMode .out else .inp }

/-- The pins released: high impedance (R210). -/
def Seq.release (q : Seq) : Seq :=
  { q with trigMode := .hiz, echoMode := .hiz, trig := false }

/-! ## Reset (R310) -/

/-- A tick at which `rst = 1`: every register takes its reset value, `PRESCALE` is drawn anew, nothing else happens. -/
def State.resetTick (s : State) : State :=
  State.resetWith s.params (s.env.afterReset s.accno) (Config.freePrescale (s.env.drawNo + 1))

end Sys2Proof.Machine
end

