-- ==== Sys2Proof/Machine/Pwm.lean ====
section
/-! DEFINITION. The PWM driver (40_pwm_driver.md): the acceptance rules of CFGFREQ, BOUND, SETPWM, SETDUTY, SETSERVO,
REGWR and REGRD (`exec…`), and the phases their sequences run through at later ticks. -/

namespace Sys2Proof.Machine

open Sys2Proof

/-! ## CFGFREQ -/

/-- CFGFREQ acceptance (R125). -/
def execCfgfreq (freq : BitVec 16) (s : State) : Host.Outcome State Fault Refusal :=
  if prescFits (presc s.params.oscHz freq.toNat) then
    .next (State.enterBus
      { s with drv := { s.drv with pre := BitVec.ofInt 8 (presc s.params.oscHz freq.toNat) } } .cfRead)
  else
    .next (s.raise .prescaleRange (BitVec.ofInt 32 (presc s.params.oscHz freq.toNat)))

/-- `CF_READ`: `OLDMODE <- BusRead(REG_MODE)` (R126). -/
def cfReadAct (s : State) : State :=
  s.busRead s.params.regMode fun v t => State.enterBus { t with drv := { t.drv with oldMode := v } } .cfSleep

/-- `CF_SLEEP`: `BusWrite(REG_MODE, OLDMODE OR SLEEP_MASK)` (R126). -/
def cfSleepAct (s : State) : State :=
  s.busWrite s.params.regMode (sleepMode s.params s.drv.oldMode) fun t => t.enterBus .cfPresc

/-- `CF_PRESC`: `BusWrite(REG_PRESCALE, PRE)` (R126). -/
def cfPrescAct (s : State) : State :=
  s.busWrite s.params.regPrescale s.drv.pre fun t => t.enterBus .cfRestore

/-- `CF_RESTORE`: `BusWrite(REG_MODE, OLDMODE)` (R126). -/
def cfRestoreAct (s : State) : State :=
  s.busWrite s.params.regMode s.drv.oldMode fun t => t.enter .cfSettle t.params.settleTicks

/-- `CF_SETTLE`: nothing; the restart write follows (R126). -/
def cfSettleAct (s : State) : State := s.enterBus .cfRestart

/-- The frequency operand of the CFGFREQ in flight, from the latched command word (R93, R126). -/
def cmdFreq (w : Word) : BitVec 16 := w.extractLsb' 0 16

/-- `CF_RESTART`: `BusWrite(REG_MODE, OLDMODE OR 0x80)`, `FREQ <- freq`, respond with the prescale (R126). -/
def cfRestartAct (s : State) : State :=
  s.busWrite s.params.regMode (restartMode s.drv.oldMode) fun t =>
    State.respondInt { t with drv := { t.drv with freq := cmdFreq t.cmd } } (t.drv.pre.setWidth 32)

/-! ## BOUND -/

/-- BOUND (R128). -/
def execBound (value : BitVec 32) (s : State) : Host.Outcome State Fault Refusal :=
  if s.params.pwmStrict && (value.toInt < 0 || maxBits s.params < magnitude value) then
    .next (s.raise .rangeError (BitVec.ofNat 32 (magnitude value)))
  else
    .next (s.respondInt (BitVec.ofNat 32 (min (magnitude value) (maxBits s.params))))

/-! ## SETPWM, SETDUTY, SETSERVO -/

/-- The shared acceptance of the three channel commands: the channel check, then `WADDR` and `WDATA` (R130). -/
def programChannel (ch : BitVec 8) (off on : BitVec 16) (s : State) : Host.Outcome State Fault Refusal :=
  if ch.toNat < s.params.nch then
    .next (State.enterBus
      { s with drv := { s.drv with
          waddr := chBase s.params ch.toNat
          wdata0 := (split16 on).1, wdata1 := (split16 on).2
          wdata2 := (split16 off).1, wdata3 := (split16 off).2 } } .spW0)
  else
    .next (s.raise .channelRange (ch.setWidth 32))

/-- SETPWM acceptance (R130). -/
def execSetpwm (ch : BitVec 8) (off on : BitVec 16) (s : State) : Host.Outcome State Fault Refusal :=
  programChannel ch off on s

/-- SETDUTY: exactly SETPWM with on step 0 (R133). -/
def execSetduty (ch : BitVec 8) (duty : BitVec 16) (s : State) : Host.Outcome State Fault Refusal :=
  programChannel ch duty 0 s

/-- SETSERVO: exactly SETPWM with the converted steps and on step 0 (R135). -/
def execSetservo (ch : BitVec 8) (pulseUs : BitVec 16) (s : State) : Host.Outcome State Fault Refusal :=
  programChannel ch (servoSteps pulseUs) 0 s

/-- `SP_W0`: on-low (R131). -/
def spW0Act (s : State) : State := s.busWrite s.drv.waddr s.drv.wdata0 fun t => t.enterBus .spW1

/-- `SP_W1`: on-high (R131). -/
def spW1Act (s : State) : State := s.busWrite (s.drv.waddr + 1) s.drv.wdata1 fun t => t.enterBus .spW2

/-- `SP_W2`: off-low (R131). -/
def spW2Act (s : State) : State := s.busWrite (s.drv.waddr + 2) s.drv.wdata2 fun t => t.enterBus .spW3

/-- `SP_W3`: off-high, respond (R131). -/
def spW3Act (s : State) : State := s.busWrite (s.drv.waddr + 3) s.drv.wdata3 fun t => t.respondDone

/-! ## REGWR, REGRD -/

/-- REGWR acceptance (R137). -/
def execRegwr (reg byte : BitVec 8) (s : State) : Host.Outcome State Fault Refusal :=
  .next (State.enterBus { s with drv := { s.drv with waddr := reg, wdata0 := byte } } .rgWr)

/-- `RG_WR` (R137). -/
def rgWrAct (s : State) : State := s.busWrite s.drv.waddr s.drv.wdata0 fun t => t.respondDone

/-- REGRD acceptance (R138). -/
def execRegrd (reg : BitVec 8) (s : State) : Host.Outcome State Fault Refusal :=
  .next (State.enterBus { s with drv := { s.drv with waddr := reg } } .rgRd)

/-- `RG_RD`: respond with the byte read (R138). -/
def rgRdAct (s : State) : State := s.busRead s.drv.waddr fun v t => t.respondInt (v.setWidth 32)

end Sys2Proof.Machine
end

