-- ==== Sys2Proof/Machine/Converter.lean ====
section
/-! DEFINITION. The distance converter (43_distance_converter.md): speed of sound, timeout, distance and rounding, over
exact integers and rationals (00_scope.md R9), and SOS. -/

namespace Sys2Proof.Machine

open Sys2Proof

/-! ## Square roots (R9) -/

/-- The bits of the integer square root of `n` from bit `k − 1` down, `r` being the part found so far. -/
def isqrtBits : Nat → Nat → Nat → Nat
  | 0, _, r => r
  | k + 1, n, r => if (r + 2 ^ k) * (r + 2 ^ k) ≤ n then isqrtBits k n (r + 2 ^ k) else isqrtBits k n r

/-- `isqrt(n)`: the largest `r` with `r * r ≤ n`. -/
def isqrt (n : Nat) : Nat := isqrtBits (n.log2 / 2 + 1) n 0

/-- `RoundSqrt(n)`: the integer nearest to the real square root. -/
def roundSqrt (n : Nat) : Nat := if isqrt n < n - isqrt n * isqrt n then isqrt n + 1 else isqrt n

/-! ## Speed of sound and timeout -/

/-- `SosMm(T_ck)`: millimetres per second (R231). -/
def sosMm (tempCk : BitVec 16) : BitVec 32 := BitVec.ofNat 32 (roundSqrt (Config.sosCoeffSq * tempCk.toNat))

/-- `Timeout(max_cm, V)`: ticks (R233). -/
def timeoutTicks (oscHz maxCm v : Nat) : Nat := 20 * maxCm * oscHz / v

/-! ## Distance and significant figures -/

/-- A non-negative rational, as numerator and positive denominator. -/
structure Ratio where
  num : Nat
  den : Nat
  deriving DecidableEq, Repr

/-- `DistExact(V, W)` in centimetres (R234). -/
def distExact (oscHz v w : Nat) : Ratio := ⟨v * w, 20 * oscHz⟩

/-- `floor(log10 n)` for `1 ≤ n < 10 ^ (k + 1)`. -/
def ilog10Up : Nat → Nat → Nat
  | 0, _ => 0
  | k + 1, n => if n < 10 then 0 else ilog10Up k (n / 10) + 1

/-- The least `j ≥ 1` with `den ≤ num * 10 ^ j`, for `num < den ≤ num * 10 ^ (k + 1)`. -/
def ilog10Down : Nat → Nat → Nat → Nat
  | 0, _, _ => 1
  | k + 1, num, den => if den ≤ num * 10 then 1 else ilog10Down k (num * 10) den + 1

/-- `ilog10(q)`: the `e` with `10^e ≤ q < 10^(e+1)`, for `q > 0` (R9). -/
def ilog10 (q : Ratio) : Int :=
  if q.den ≤ q.num then (ilog10Up ((q.num / q.den).log2 + 1) (q.num / q.den) : Int)
  else -(ilog10Down (q.den.log2 + 1) q.num q.den : Int)

/-- `RoundHalfUp(q / 10^e)`; the division is exact (R235). -/
def scaledRound (q : Ratio) (e : Int) : Nat :=
  if 0 ≤ e then roundHalfUp q.num (q.den * 10 ^ e.toNat) else roundHalfUp (q.num * 10 ^ (-e).toNat) q.den

/-- `RoundSig(q, n) = (M, E)`, meaning `M * 10^E` (R235). -/
def roundSig (q : Ratio) (n : Nat) : Nat × Int :=
  if q.num = 0 then (0, 0)
  else if scaledRound q (ilog10 q - n + 1) = 10 ^ n then (10 ^ (n - 1), ilog10 q - n + 2)
  else (scaledRound q (ilog10 q - n + 1), ilog10 q - n + 1)

/-- `DistSig(V, W, n)` (R235). -/
def distSig (oscHz v w n : Nat) : Nat × Int := roundSig (distExact oscHz v w) n

/-! ## SOS -/

/-- SOS (R236). -/
def execSos (tempCk : BitVec 16) (s : State) : Host.Outcome State Fault Refusal :=
  .next (s.respondInt (sosMm tempCk))

end Sys2Proof.Machine
end

