-- ==== Sys2Proof/Machine/Ultrasonic.lean ====
section
/-! DEFINITION. The ultrasonic sequencer (42_ultrasonic_sequencer.md): the acceptance rules of USCFG, MEASURE and USREL
(`exec…`), and the phases of a measurement. -/

namespace Sys2Proof.Machine

open Sys2Proof

/-! ## USCFG, USREL -/

/-- USCFG (R192): the minimum, the maximum and the claim are checked in this order (R292). -/
def execUscfg (minCm maxCm : BitVec 16) (strict : Bool) (s : State) : Host.Outcome State Fault Refusal :=
  if minCm = 0 then .next (s.raise .configurationError 1)
  else if maxCm < minCm then .next (s.raise .configurationError 2)
  else if s.seq.usReady then .next (s.raise .configurationError 3)
  else
    .next (State.respondDone { s with
      seq := Seq.arm s.params
        { s.seq with usMin := minCm, usMax := maxCm, usStrict := strict, usReady := true } })

/-- USREL (R210). -/
def execUsrel (s : State) : Host.Outcome State Fault Refusal :=
  if s.seq.usReady then
    .next (State.respondDone { s with seq := Seq.release { s.seq with usReady := false } })
  else .next (s.raise .notConfigured 0)

/-! ## MEASURE: acceptance -/

/-- The ambient temperature of a measurement (R199). -/
def State.ambientTemp (s : State) : BitVec 16 :=
  if s.params.thermPresent then s.inputs.temp else Config.tDefaultCk

/-- The speed of sound of a measurement, mm/s (R199). -/
def State.soundSpeed (s : State) : BitVec 32 :=
  if s.params.thermPresent then sosMm s.inputs.temp else s.params.sosDefaultMmS

/-- `TO` for a speed of sound (R200). -/
def State.echoTimeout (s : State) (v : BitVec 32) : BitVec 64 :=
  fit64 (timeoutTicks s.params.oscHz s.seq.usMax.toNat v.toNat)

/-- `OUTCOME <- o; PHASE <- US_REARM`, a phase of one tick. -/
def State.finishMeasure (s : State) (o : MeasureOutcome) : State :=
  State.enter { s with seq := { s.seq with outcome := o } } .usRearm 1

/-- `NSIG <- nsig` and R199: what every accepted MEASURE writes first (R198). -/
def State.beginMeasure (s : State) (nsig : BitVec 8) : State :=
  { s with seq := { s.seq with nsig := nsig.setWidth 4, temp := s.ambientTemp, v := s.soundSpeed } }

/-- The start of the trigger pulse (R198). -/
def State.startPulse (s : State) : State :=
  State.enter { s with
    seq := Seq.setTrigMode s.params
      { s.seq with
        timeout := s.echoTimeout s.seq.v
        now := s.time
        deadline := fit64 (s.time.toNat + s.params.trigTicks.toNat + (s.echoTimeout s.seq.v).toNat)
        trig := true } .out } .usTrig s.params.trigTicks

/-- MEASURE acceptance (R197, R198). -/
def execMeasure (nsig : BitVec 8) (s : State) : Host.Outcome State Fault Refusal :=
  if s.seq.usReady then
    if s.inputs.hwErr || s.soundSpeed = 0 then .next ((s.beginMeasure nsig).finishMeasure .hwErr)
    else .next (s.beginMeasure nsig).startPulse
  else .next (s.raise .notConfigured 0)

/-! ## MEASURE: phases -/

/-- The end of the trigger pulse (R201). -/
def endPulse (s : State) : State :=
  State.goto { s with
    seq := { (if s.params.sharedPin then s.seq.setTrigMode s.params .inp else s.seq) with
      trig := false
      pstart := s.time } } .usRise

/-- `US_TRIG` at one tick; a hardware error cuts the pulse short (R201, R206). -/
def usTrigTick (s : State) : State :=
  if s.inputs.hwErr then s.finishMeasure .hwErr else s.timed endPulse

/-- `US_RISE` at one tick (R202, R206). -/
def usRiseTick (s : State) : State :=
  if s.inputs.hwErr then s.finishMeasure .hwErr
  else if s.inputs.echo then State.goto { s with seq := { s.seq with pend := s.time } } .usFall
  else if s.seq.deadline < s.time then
    State.finishMeasure { s with seq := { s.seq with pstart := s.time } } .timeout
  else { s with seq := { s.seq with pstart := s.time } }

/-- The deadline test of the falling-edge wait: by default against the pulse start, the known defect (R203, R204). -/
def State.fallDeadlinePassed (s : State) : Bool :=
  if s.params.fallDeadlineFix then s.seq.deadline < s.time else s.seq.deadline < s.seq.pstart

/-- `US_FALL` at one tick (R203, R206). -/
def usFallTick (s : State) : State :=
  if s.inputs.hwErr then s.finishMeasure .hwErr
  else if s.inputs.echo then
    if s.fallDeadlinePassed then State.finishMeasure { s with seq := { s.seq with pend := s.time } } .timeout
    else { s with seq := { s.seq with pend := s.time } }
  else s.finishMeasure .ok

/-- The pulse width `W = PEND − PSTART` in ticks (R208). -/
def Seq.pulseWidth (q : Seq) : Nat := (q.pend - q.pstart).toNat

/-- The distance response of a measurement that saw both edges (R208). -/
def State.respondDistance (s : State) (d : Nat × Int) : State :=
  s.respond .ok .dist (fitRexp d.2) (BitVec.ofNat 32 d.1)

/-- The result by outcome (R208). `NONE` cannot stand in `US_REARM` (log 13). -/
def State.measureResult (s : State) : State :=
  match s.seq.outcome with
  | .ok =>
    s.respondDistance (distSig s.params.oscHz s.seq.v.toNat s.seq.pulseWidth s.seq.nsig.toNat)
  | .timeout => if s.seq.usStrict then s.raise .timeoutCondition 0 else s.respond .ok .absent 0 0
  | .hwErr => s.respond .ok .absent 0 0
  | .none => s.respond .ok .absent 0 0

/-- `US_REARM`: the pins are re-armed whatever the outcome, then the result, then `OUTCOME <- NONE` (R207). -/
def rearmAct (s : State) : State :=
  { s.measureResult with seq := { Seq.arm s.params s.seq with outcome := .none } }

end Sys2Proof.Machine
end

