-- ==== Sys2Proof/Machine/Dispatch.lean ====
section
/-! DEFINITION. The meaning of each command: its acceptance rule (30_encoding.md R97, step 4). -/

namespace Sys2Proof.Machine

open Sys2Proof

def exec (i : Instr) (s : State) : Host.Outcome State Fault Refusal :=
  match i with
  | .cfgfreq freq => Sys2Proof.Machine.execCfgfreq freq s
  | .bound value => Sys2Proof.Machine.execBound value s
  | .setpwm ch off on => Sys2Proof.Machine.execSetpwm ch off on s
  | .setduty ch duty => Sys2Proof.Machine.execSetduty ch duty s
  | .setservo ch pulseUs => Sys2Proof.Machine.execSetservo ch pulseUs s
  | .regwr reg byte => Sys2Proof.Machine.execRegwr reg byte s
  | .regrd reg => Sys2Proof.Machine.execRegrd reg s
  | .uscfg minCm maxCm strict => Sys2Proof.Machine.execUscfg minCm maxCm strict s
  | .measure nsig => Sys2Proof.Machine.execMeasure nsig s
  | .usrel => Sys2Proof.Machine.execUsrel s
  | .sos tempCk => Sys2Proof.Machine.execSos tempCk s

end Sys2Proof.Machine
end

