-- ==== Sys2Proof/Machine/Divider.lean ====
section
/-! DEFINITION. The PWM controller's own step (41_frequency_divider.md): the divider advance, the output comparators, and
what the clock edge does to every tick (00_scope.md R11). -/

namespace Sys2Proof.Machine

open Sys2Proof

/-- One advance of the prescaler and, when it wraps, of the 4096-step counter (R164). -/
def Ctl.advance (c : Ctl) : Ctl :=
  if c.prescale ≤ c.psc then { c with psc := 0, step := c.step + 1 } else { c with psc := c.psc + 1 }

/-- Part (1) of the controller's step at a tick (R160): it advances while awake and not corrupt (R164, R165). -/
def Ctl.tick (p : Config.Params) (c : Ctl) : Ctl :=
  if c.asleep p || c.timingCorrupt then c else c.advance

/-- The same on the whole state. -/
def State.dividerTick (s : State) : State := { s with ctl := s.ctl.tick s.params }

/-- While `TIMING_CORRUPT = 1` nothing constrains `PSC` and `STEP`: both are drawn (R32, R163; log 7). -/
def Ctl.drawIfCorrupt (n : Nat) (c : Ctl) : Ctl :=
  if c.timingCorrupt then { c with psc := Config.freePsc n, step := Config.freeStep n } else c

/-- The clock edge that ends a tick: `TIME <- TIME + 1` (R21), and the environment shows its next pins. -/
def State.clockEdge (s : State) : State :=
  { s with time := s.time + 1, env := s.env.advance, ctl := s.ctl.drawIfCorrupt s.env.drawNo }

/-! ## The output comparators -/

/-- `ON[ch]` (R30). -/
def Ctl.onStep (p : Config.Params) (c : Ctl) (ch : Nat) : BitVec 16 :=
  join16 (c.chreg.read (chBase p ch).toNat) (c.chreg.read ((chBase p ch).toNat + 1))

/-- `OFF[ch]` (R30). -/
def Ctl.offStep (p : Config.Params) (c : Ctl) (ch : Nat) : BitVec 16 :=
  join16 (c.chreg.read ((chBase p ch).toNat + 2)) (c.chreg.read ((chBase p ch).toNat + 3))

/-- The comparator on in-range steps: high from the on step up to, not including, the off step, cyclically (R167). -/
def comparator (on off step : Nat) : Bool :=
  if on < off then on ≤ step && step < off
  else if off < on then on ≤ step || step < off
  else false

/-- `pwm_out[ch]` (R167); where R163 and R168 leave it unspecified it is drawn (log 8). -/
def State.pwmOut (s : State) (ch : Nat) : Bool :=
  if s.ctl.timingCorrupt || Config.counterSteps ≤ (s.ctl.onStep s.params ch).toNat
      || Config.counterSteps ≤ (s.ctl.offStep s.params ch).toNat then
    Config.freePwmOut s.env.drawNo ch
  else
    comparator (s.ctl.onStep s.params ch).toNat (s.ctl.offStep s.params ch).toNat s.ctl.step.toNat

end Sys2Proof.Machine
end

