-- ==== Sys2Proof/Machine/Sequencer.lean ====
section
/-! DEFINITION. What the command in flight does at one tick, by `PHASE` (10_state.md R23). -/

namespace Sys2Proof.Machine

open Sys2Proof

/-- The phase's rule at one tick. In `IDLE` nothing is in flight. -/
def State.phaseTick (s : State) : State :=
  match s.phase with
  | .idle => s
  | .cfRead => s.timed cfReadAct
  | .cfSleep => s.timed cfSleepAct
  | .cfPresc => s.timed cfPrescAct
  | .cfRestore => s.timed cfRestoreAct
  | .cfSettle => s.timed cfSettleAct
  | .cfRestart => s.timed cfRestartAct
  | .spW0 => s.timed spW0Act
  | .spW1 => s.timed spW1Act
  | .spW2 => s.timed spW2Act
  | .spW3 => s.timed spW3Act
  | .rgWr => s.timed rgWrAct
  | .rgRd => s.timed rgRdAct
  | .usTrig => usTrigTick s
  | .usRise => usRiseTick s
  | .usFall => usFallTick s
  | .usRearm => s.timed rearmAct

end Sys2Proof.Machine
end

