-- ==== Sys2Proof/Machine/Accept.lean ====
section
/-! DEFINITION. The front end: accepting a command word (10_state.md R22, 30_encoding.md R97, R98), the rule that fires at
a tick without reset, and placing a word on the command port. -/

namespace Sys2Proof.Machine

open Sys2Proof

/-- Accept a word: latch it, decode it, run the command's acceptance rule, or answer `IllegalCommand`. -/
def State.accept (s : State) (w : Word) : Host.Outcome State Fault Refusal :=
  match decode w with
  | .ok i => exec i (s.latch w)
  | .error _ => .next ((s.latch w).raise .illegalCommand 0)

/-- Whether the front end accepts a command at this tick: `PHASE = IDLE` and `cmd_valid = 1` (R22). -/
def State.accepts (s : State) : Bool := s.phase == .idle && s.inputs.cmdValid

/-- The rule of DRV, SEQ or the front end that fires at a tick without reset. -/
def State.commandTick (s : State) : Host.Outcome State Fault Refusal :=
  if s.accepts then s.accept s.inputs.cmd else .next s.phaseTick

/-- The clock edge after an outcome that goes on. -/
def endTick : Host.Outcome State Fault Refusal → Host.Outcome State Fault Refusal
  | .next s => .next s.clockEdge
  | .fault r => .fault r
  | .refused r => .refused r

/-- One tick of the block without reset: the divider, the command's rule (whose register write wins over the divider,
R160), the clock edge. -/
def State.tick (s : State) : Host.Outcome State Fault Refusal := endTick s.dividerTick.commandTick

/-- The word as the command port carries it: one 64-bit word, bits from `nbits` up 0 (R90). -/
def portWord (nbits w : Nat) : Word := BitVec.ofNat 64 (w % 2 ^ nbits)

/-- A state in which the host presents a word that the next tick accepts: `PHASE = IDLE`, `cmd_valid = 1`, no reset. -/
def State.present (s : State) (w : Word) : State :=
  { s with
    phase := .idle
    env := { s.env with pins := { s.env.pins with rst := false, cmdValid := true, cmd := w } } }

end Sys2Proof.Machine
end

