-- ==== Sys2Proof/Machine/Step.lean ====
section
/-! DEFINITION. One step of the machine: one tick of the block's clock (00_scope.md R11). -/

namespace Sys2Proof.Machine

open Sys2Proof

/-- One tick. A parameter set that breaks a constraint is refused (R7); a reset wins over everything else (R310). -/
def step (s : State) : Host.Outcome State Fault Refusal :=
  if paramsOk s.params then
    if s.inputs.rst then .next s.resetTick else s.tick
  else .refused .badParameters

/-- The state with an instruction's word placed where the next step takes it: on the command port, with the block idle
and out of reset. -/
def State.withFetchWord (s : State) (nbits w : Nat) : State := s.present (portWord nbits w)

end Sys2Proof.Machine
end

