-- ==== Sys2Proof/Machine/Pins.lean ====
section
/-! DEFINITION. The output pins (10_state.md R36): functions of the state. -/

namespace Sys2Proof.Machine

open Sys2Proof

/-- `cmd_ready`: 1 exactly when `PHASE = IDLE`. -/
def State.cmdReady (s : State) : Bool := s.phase == .idle

/-- `resp_valid`. -/
def State.respValid (s : State) : Bool := s.resp.valid

/-- `resp`: status, kind, exponent, zero byte, value (30_encoding.md R94). -/
def Resp.word (r : Resp) : Word :=
  r.rstat.setWidth 64 <<< 56 ||| r.rkind.setWidth 64 <<< 48 ||| r.rexp.setWidth 64 <<< 40 ||| r.rval.setWidth 64

/-- `trig`: the level driven, or none where the pin is not driven. -/
def Seq.trigPin (q : Seq) : Option Bool :=
  match q.trigMode with
  | .out => some q.trig
  | .inp => none
  | .hiz => none

/-- `pwm_out`, channels 0 to `NCH − 1` (R33). -/
def State.pwmPins (s : State) : List Bool := (List.range s.params.nch).map s.pwmOut

end Sys2Proof.Machine
end

