-- ==== Sys2Proof/Machine/Steering.lean ====
section
/-! DEFINITION. The HOST's reference steering routine (44_steering_host.md R260 to R267) as a host agent that presents
commands and consumes the block's responses, and the assembler's pseudo-commands (30_encoding.md R100). The host is
outside the block: `step` uses none of this (log 15). -/

namespace Sys2Proof.Machine

open Sys2Proof

/-- `STOP ch`. -/
def pseudoStop (ch : BitVec 8) : List Instr := [.setduty ch 0]

/-- `DRIVE ch0, ch1, ch2, ch3, duty`. -/
def pseudoDrive (ch0 ch1 ch2 ch3 : BitVec 8) (duty : BitVec 16) : List Instr :=
  [.setduty ch0 duty, .setduty ch1 duty, .setduty ch2 duty, .setduty ch3 duty]

/-- `STOPALL ch0, ch1, ch2, ch3`. -/
def pseudoStopAll (ch0 ch1 ch2 ch3 : BitVec 8) : List Instr := pseudoDrive ch0 ch1 ch2 ch3 0

/-- The four steering models (R260). -/
inductive SteeringModel where
  | crabWalk | mecanum | singlePivotAxle | dualPivotAxle
  deriving DecidableEq, Repr

/-- The five maneuvers (R260). -/
inductive Maneuver where
  | straight | turnLeft | turnRight | maintainLane | emergencyBrake
  deriving DecidableEq, Repr

/-- One level per wheel: front-left, front-right, rear-left, rear-right. -/
structure Wheels where
  fl : Bool
  fr : Bool
  rl : Bool
  rr : Bool
  deriving DecidableEq, Repr

/-- The host's steering configuration (R260), for a block with `nch` channels. GPIO pins are the host's pin numbers. -/
structure SteeringConfig (nch : Nat) where
  /-- The steering model; `none` is a name that is none of the four. -/
  model : Option SteeringModel
  pinFL : Nat
  pinFR : Nat
  pinRL : Nat
  pinRR : Nat
  chFL : BitVec 8
  chFR : BitVec 8
  chRL : BitVec 8
  chRR : BitVec 8
  reverseMounted : Bool
  /-- Each channel is below `NCH`. -/
  channels_lt : chFL.toNat < nch ∧ chFR.toNat < nch ∧ chRL.toNat < nch ∧ chRR.toNat < nch
  deriving DecidableEq, Repr

/-- The GPIO direction pins of the four wheels. -/
def SteeringConfig.pins {nch : Nat} (cfg : SteeringConfig nch) : List Nat := [cfg.pinFL, cfg.pinFR, cfg.pinRL, cfg.pinRR]

/-- Why the host's routine fails. -/
inductive SteeringError where
  /-- The steering model is none of the four names (R261). -/
  | configurationError
  /-- An unimplemented model or maneuver (R261, R266). -/
  | unimplementedCapability
  /-- BOUND answered `RangeError` with this magnitude (R264). -/
  | rangeError (magnitude : BitVec 32)
  /-- A SETDUTY answered `TransportError` after this many of its writes (R264). -/
  | transportError (performed : BitVec 32)
  /-- A command answered another error, which no rule lets a legal configuration meet; surfaced as it is (log 15). -/
  | otherError (rstat : BitVec 8) (info : BitVec 32)
  deriving DecidableEq, Repr

/-- The crab-walk truth table for `reverse_mounted = false`, where it has a row (R262). -/
def steeringDir : Maneuver → Bool → Option Wheels
  | .straight, false => some ⟨false, false, false, false⟩
  | .straight, true => some ⟨true, true, true, true⟩
  | .turnLeft, false => some ⟨true, false, true, false⟩
  | .turnLeft, true => some ⟨false, true, false, true⟩
  | .turnRight, false => some ⟨false, true, false, true⟩
  | .turnRight, true => some ⟨true, false, true, false⟩
  | .maintainLane, _ => none
  | .emergencyBrake, _ => none

/-- XOR of every output with the mounting flag (R263). -/
def Wheels.mounted (w : Wheels) (reverseMounted : Bool) : Wheels :=
  ⟨w.fl ^^ reverseMounted, w.fr ^^ reverseMounted, w.rl ^^ reverseMounted, w.rr ^^ reverseMounted⟩

/-- What the routine does once BOUND has answered. -/
inductive SteeringPlan where
  /-- Fail; no direction pin and no channel is written. -/
  | fail (e : SteeringError)
  /-- Stop the wheels; no direction pin is written. -/
  | stop (cmds : List Instr)
  /-- Write the direction pins, then issue the commands. -/
  | drive (dirs : Wheels) (cmds : List Instr)
  deriving DecidableEq, Repr

/-- Steps 1 and 2 of `move`: the BOUND command the host issues, on the magnitude (R264). The operand is meant for
`|speed| < 2^31` (log 15). -/
def moveBound (speed : Int) : Instr := .bound (BitVec.ofNat 32 speed.natAbs)

/-- `DRIVE` on the four wheel channels. -/
def SteeringConfig.drive {nch : Nat} (cfg : SteeringConfig nch) (duty : BitVec 16) : List Instr :=
  pseudoDrive cfg.chFL cfg.chFR cfg.chRL cfg.chRR duty

/-- `STOPALL` on the four wheel channels. -/
def SteeringConfig.stopAll {nch : Nat} (cfg : SteeringConfig nch) : List Instr :=
  pseudoStopAll cfg.chFL cfg.chFR cfg.chRL cfg.chRR

/-- Steps 3 to 5 of `move` with the duty BOUND answered; `reversing` is already true for a negative speed (R264). -/
def movePlan {nch : Nat} (cfg : SteeringConfig nch) (m : Maneuver) (reversing : Bool) (duty : BitVec 16) :
    SteeringPlan :=
  if duty = 0 ∨ m = .emergencyBrake then .stop cfg.stopAll
  else
    match steeringDir m reversing with
    | none => .fail .unimplementedCapability
    | some w => .drive (w.mounted cfg.reverseMounted) (cfg.drive duty)

/-- The error a response carries, if it carries one (60_exceptions.md R280). -/
def Resp.steeringError (r : Resp) : Option SteeringError :=
  if r.rstat = statusCode .ok then none
  else if r.rstat = statusCode .rangeError then some (.rangeError r.rval)
  else if r.rstat = statusCode .transportError then some (.transportError r.rval)
  else some (.otherError r.rstat r.rval)

/-! ## The host as an agent -/

/-- What the host's routine is doing: it has issued a command and its answer is to come. -/
inductive SteeringTask where
  /-- Nothing: the last call has returned. -/
  | idle
  /-- `move` has issued BOUND (R264, step 2). -/
  | bounding (speed : Int) (m : Maneuver) (reversing : Bool)
  /-- `move` has issued a SETDUTY; the list follows it (R264, steps 3 and 5). -/
  | programming (cmd : Instr) (rest : List Instr)
  /-- Teardown has issued a SETDUTY of its STOPALL; the list follows it (R267). -/
  | stopping (cmd : Instr) (rest : List Instr)
  deriving DecidableEq, Repr

/-- The constructed steering controller (R260). -/
structure SteeringHost (nch : Nat) where
  cfg : SteeringConfig nch
  /-- The GPIO pins it holds. -/
  claimed : List Nat
  /-- The levels last written to the direction pins; none before the first write. -/
  dirs : Option Wheels
  task : SteeringTask
  /-- How the last call failed, if it did. -/
  error : Option SteeringError
  deriving DecidableEq, Repr

/-- Construction: only crab-walk goes on, and claims the four direction pins (R260, R261). -/
def steeringConstruct {nch : Nat} (cfg : SteeringConfig nch) : Except SteeringError (SteeringHost nch) :=
  match cfg.model with
  | none => .error .configurationError
  | some .crabWalk => .ok ⟨cfg, cfg.pins, none, .idle, none⟩
  | some .mecanum => .error .unimplementedCapability
  | some .singlePivotAxle => .error .unimplementedCapability
  | some .dualPivotAxle => .error .unimplementedCapability

/-- The command the host has issued. -/
def SteeringHost.command {nch : Nat} (h : SteeringHost nch) : Option Instr :=
  match h.task with
  | .idle => none
  | .bounding speed _ _ => some (moveBound speed)
  | .programming cmd _ => some cmd
  | .stopping cmd _ => some cmd

/-- The call ends, well or with an error. -/
def SteeringHost.finish {nch : Nat} (h : SteeringHost nch) (e : Option SteeringError) : SteeringHost nch :=
  { h with task := .idle, error := e }

/-- Go on with a list of SETDUTYs of `move`. -/
def SteeringHost.program {nch : Nat} (h : SteeringHost nch) : List Instr → SteeringHost nch
  | [] => h.finish none
  | c :: rest => { h with task := .programming c rest }

/-- Go on with teardown's STOPALL; when all are answered OK the direction pins are released (R267). -/
def SteeringHost.stop {nch : Nat} (h : SteeringHost nch) : List Instr → SteeringHost nch
  | [] => { h.finish none with claimed := [] }
  | c :: rest => { h with task := .stopping c rest }

/-- A call of `move` (R264): it issues BOUND. One call at a time (R22), and none once the pins are released. -/
def SteeringHost.move {nch : Nat} (h : SteeringHost nch) (speed : Int) (m : Maneuver) (reversing : Bool) :
    SteeringHost nch :=
  if h.task = .idle ∧ h.claimed = h.cfg.pins then
    { h with task := .bounding speed m (reversing || speed < 0), error := none }
  else h

/-- A call of teardown (R267): it issues STOPALL. -/
def SteeringHost.teardown {nch : Nat} (h : SteeringHost nch) : SteeringHost nch :=
  if h.task = .idle ∧ h.claimed = h.cfg.pins then { h.stop h.cfg.stopAll with error := none } else h

/-- Carry out what `move` does once BOUND has answered. -/
def SteeringHost.carryOut {nch : Nat} (h : SteeringHost nch) : SteeringPlan → SteeringHost nch
  | .fail e => h.finish (some e)
  | .stop cmds => h.program cmds
  | .drive dirs cmds => { h with dirs := some dirs }.program cmds

/-- The host reads the answer to the command it has issued. An error ends the call and is surfaced; what is already
programmed stays (R264). That a RangeError ends an emergency-brake too is the model's choice, R264 over the wording of
E12 (DESIGN CHOICE, unsafe, log 15). -/
def SteeringHost.receive {nch : Nat} (h : SteeringHost nch) (r : Resp) : SteeringHost nch :=
  match h.task, r.steeringError with
  | .idle, _ => h
  | .bounding _ _ _, some e => h.finish (some e)
  | .bounding _ m reversing, none => h.carryOut (movePlan h.cfg m reversing (r.rval.setWidth 16))
  | .programming _ _, some e => h.finish (some e)
  | .programming _ rest, none => h.program rest
  | .stopping _ _, some e => h.finish (some e)
  | .stopping _ rest, none => h.stop rest

/-! ## The host and the block together -/

/-- A host connected to a block; `taken` says that its command has been accepted and not yet answered. -/
structure SteeringSystem (nch : Nat) where
  host : SteeringHost nch
  block : State
  taken : Bool
  deriving DecidableEq, Repr

/-- The block with the host's command on its port, held there until it is taken (R268). -/
def SteeringSystem.presented {nch : Nat} (y : SteeringSystem nch) : State :=
  match y.host.command, y.taken with
  | some c, false =>
    { y.block with env := { y.block.env with pins := { y.block.env.pins with cmdValid := true, cmd := encode c } } }
  | _, _ => { y.block with env := { y.block.env with pins := { y.block.env.pins with cmdValid := false } } }

/-- Whether the block takes the host's command at this tick. -/
def SteeringSystem.takes {nch : Nat} (y : SteeringSystem nch) : Bool := y.presented.accepts && !y.presented.inputs.rst

/-- After a tick of the block: a command that was or is now in flight and is answered goes to the host (R22, R25). A
reset of the block drops its command with no response (R310) and leaves the host's state open (R313): here the host
keeps waiting for the answer and presents nothing more (DESIGN CHOICE, unsafe, log 25). -/
def SteeringSystem.settle {nch : Nat} (y : SteeringSystem nch) (t : State) : SteeringSystem nch :=
  if (y.taken || y.takes) && t.cmdReady && t.respValid then ⟨y.host.receive t.resp, t, false⟩
  else ⟨y.host, t, y.taken || y.takes⟩

/-- One tick of both. -/
def SteeringSystem.tick {nch : Nat} (y : SteeringSystem nch) : Host.Outcome (SteeringSystem nch) Fault Refusal :=
  match step y.presented with
  | .next t => .next (y.settle t)
  | .fault r => .fault r
  | .refused r => .refused r

end Sys2Proof.Machine
end

