-- ==== Sys2Proof/Safety.lean ====
section
/-! DEFINITION. The terms the claims are stated in: the environment some ticks ahead, the conditions under which a tick
or a command goes on, which register a tick stores to, and the invariants of the block. -/

namespace Sys2Proof.Machine

open Sys2Proof

/-! ## Runs -/

/-- The input pins `j` ticks from now. -/
def Env.pinsAt (e : Env) : Nat → Config.Inputs
  | 0 => e.pins
  | j + 1 => (e.script[j]?).getD (Config.freeInputs (e.drawNo + (j + 1)))

/-- The input pins `j` ticks from now. -/
def State.pinsAt (s : State) (j : Nat) : Config.Inputs := s.env.pinsAt j

/-- `n` ticks of the block. -/
abbrev State.run (s : State) (n : Nat) : Host.Outcome State Fault Refusal := Host.Core.run Sys2Proof.core n s

/-- This tick runs the block's rules: legal parameters and no reset. -/
abbrev State.running (s : State) : Prop := paramsOk s.params = true ∧ s.inputs.rst = false

/-- The next `n` ticks do. -/
abbrev State.runningFor (s : State) (n : Nat) : Prop :=
  paramsOk s.params = true ∧ ∀ j < n, (s.pinsAt j).rst = false

/-- The block is idle and the host presents a word that decodes to the command `i`. -/
abbrev State.presents (s : State) (i : Instr) : Prop :=
  s.phase = .idle ∧ s.inputs.cmdValid = true ∧ decode s.inputs.cmd = .ok i

/-- The next `n` register accesses succeed. -/
abbrev State.accessesSucceed (s : State) (n : Nat) : Prop :=
  ∀ k < n, s.accessFails (s.accno + k) = false

/-- The total length in ticks of the next `n` register accesses. -/
def State.latencies (s : State) : Nat → Nat
  | 0 => 0
  | n + 1 => State.latencies s n + (s.env.busLat (s.accno + n)).toNat

/-- This tick is the last of the phase in flight, so its action fires (R24). -/
abbrev State.lastTick (s : State) (ph : Phase) : Prop := s.phase = ph ∧ s.waitCnt = 1

/-! ## Phases -/

/-- The phases of a measurement. -/
def Phase.measuring : Phase → Bool
  | .usTrig | .usRise | .usFall | .usRearm => true
  | .idle | .cfRead | .cfSleep | .cfPresc | .cfRestore | .cfSettle | .cfRestart | .spW0 | .spW1 | .spW2 | .spW3
  | .rgWr | .rgRd => false

/-- The phases with a preset length (R24). -/
def Phase.hasLength : Phase → Bool
  | .idle | .usRise | .usFall => false
  | .cfRead | .cfSleep | .cfPresc | .cfRestore | .cfSettle | .cfRestart | .spW0 | .spW1 | .spW2 | .spW3
  | .rgWr | .rgRd | .usTrig | .usRearm => true

/-- The phases that make a register access. -/
def Phase.onBus : Phase → Bool
  | .cfRead | .cfSleep | .cfPresc | .cfRestore | .cfRestart | .spW0 | .spW1 | .spW2 | .spW3 | .rgWr | .rgRd => true
  | .idle | .cfSettle | .usTrig | .usRise | .usFall | .usRearm => false

/-- The register address a tick stores to, if it stores at all: the expression of the phase's own write (R126, R131,
R137). -/
def State.storeAddress (s : State) : Option Byte :=
  if s.waitCnt = 1 then
    match s.phase with
    | .cfSleep => some s.params.regMode
    | .cfPresc => some s.params.regPrescale
    | .cfRestore => some s.params.regMode
    | .cfRestart => some s.params.regMode
    | .spW0 => some s.drv.waddr
    | .spW1 => some (s.drv.waddr + 1)
    | .spW2 => some (s.drv.waddr + 2)
    | .spW3 => some (s.drv.waddr + 3)
    | .rgWr => some s.drv.waddr
    | .idle | .cfRead | .cfSettle | .rgRd | .usTrig | .usRise | .usFall | .usRearm => none
  else none

/-- The byte that a tick which stores to a register address stores there: the phase's own expression (R126, R131,
R137). -/
def State.storeByte (s : State) : Byte :=
  match s.phase with
  | .cfSleep => sleepMode s.params s.drv.oldMode
  | .cfPresc => s.drv.pre
  | .cfRestore => s.drv.oldMode
  | .cfRestart => restartMode s.drv.oldMode
  | .spW0 => s.drv.wdata0
  | .spW1 => s.drv.wdata1
  | .spW2 => s.drv.wdata2
  | .spW3 => s.drv.wdata3
  | .rgWr => s.drv.wdata0
  | .idle | .cfRead | .cfSettle | .rgRd | .usTrig | .usRise | .usFall | .usRearm => 0

/-- This tick restarts the counters: a taken write to `REG_MODE` with the high bit set (R162). -/
abbrev State.restarts (s : State) : Prop :=
  s.storeAddress = some s.params.regMode ∧ s.busFails = false ∧ s.storeByte.getLsbD 7 = true

/-! ## Invariants -/

/-- The controller: `MODE` bit 7 is 0 (R28); the register space is canonical and lists channel registers only (R61,
R70); at CFGFREQ's prescale write the oscillator is stopped (R127 (e)); the four writes of a channel command go to
channel registers (R122, R130). -/
abbrev CtlInv (s : State) : Prop :=
  s.ctl.mode.getLsbD 7 = false
    ∧ s.ctl.chreg.wf = true
    ∧ (∀ c ∈ s.ctl.chreg, isChannelReg s.params (BitVec.ofNat 8 c.1) = true)
    ∧ (s.phase = .cfPresc → s.ctl.asleep s.params = true)
    ∧ (s.phase = .spW0 ∨ s.phase = .spW1 ∨ s.phase = .spW2 ∨ s.phase = .spW3 →
        isChannelReg s.params s.drv.waddr = true ∧ isChannelReg s.params (s.drv.waddr + 1) = true
          ∧ isChannelReg s.params (s.drv.waddr + 2) = true ∧ isChannelReg s.params (s.drv.waddr + 3) = true)

/-- `ECHO_MODE` of the armed pins (R190). -/
def armedEcho (p : Config.Params) : EchoMode := if p.sharedPin then .hiz else .inp

/-- The sequencing of the ranging unit: a phase with a length has ticks left (R24), a measurement runs only while
constructed with a legal configuration and operand (R34, R93), `OUTCOME` is `NONE` outside `US_REARM` (R40). -/
abbrev SequenceInv (s : State) : Prop :=
  (s.phase.hasLength = true → s.waitCnt ≠ 0)
    ∧ (s.phase.measuring = true → s.seq.usReady = true ∧ 1 ≤ s.seq.nsig.toNat ∧ s.seq.nsig.toNat ≤ 9)
    ∧ (s.phase = .usRearm ↔ s.seq.outcome ≠ .none)
    ∧ (s.seq.usReady = true → 1 ≤ s.seq.usMin.toNat ∧ s.seq.usMin.toNat ≤ s.seq.usMax.toNat)

/-- The ranging pins (R35, R190, R212): released while not constructed, armed while no measurement is in flight, driven
high during the trigger pulse, listening during the waits; a shared pin's `ECHO_MODE` mirrors `TRIG_MODE`, and on two
pins the trigger is never an input. -/
abbrev PinInv (s : State) : Prop :=
  (s.seq.usReady = false → s.seq.trigMode = .hiz ∧ s.seq.echoMode = .hiz ∧ s.seq.trig = false)
    ∧ (s.seq.usReady = true → s.phase.measuring = false →
        s.seq.trigMode = .out ∧ s.seq.trig = false ∧ s.seq.echoMode = armedEcho s.params)
    ∧ (s.phase = .usTrig → s.seq.trigMode = .out ∧ s.seq.trig = true ∧ s.seq.echoMode = armedEcho s.params)
    ∧ (s.phase = .usRise ∨ s.phase = .usFall →
        s.seq.trig = false ∧ s.seq.echoMode = .inp ∧ s.seq.trigMode = if s.params.sharedPin then .inp else .out)
    ∧ (if s.params.sharedPin then s.seq.echoMode = mirrorMode s.seq.trigMode else s.seq.trigMode ≠ .inp)

/-- `DEADLINE = NOW + TRIG_TICKS + TO` as numbers (R38). -/
abbrev DeadlineSet (s : State) : Prop :=
  s.seq.deadline.toNat = s.seq.now.toNat + s.params.trigTicks.toNat + s.seq.timeout.toNat

/-- The timestamps of a measurement in flight (R198, R201 to R205): the pulse ends `TRIG_TICKS` after acceptance, the
pulse start is the last tick before the sample to come and never passes the deadline, the pulse end follows it. -/
abbrev TimestampInv (s : State) : Prop :=
  (s.phase = .usTrig →
      DeadlineSet s ∧ s.time.toNat + s.waitCnt.toNat = s.seq.now.toNat + s.params.trigTicks.toNat + 1)
    ∧ (s.phase = .usRise →
        DeadlineSet s ∧ s.seq.pstart.toNat + 1 = s.time.toNat ∧ s.seq.pstart.toNat ≤ s.seq.deadline.toNat)
    ∧ (s.phase = .usFall →
        DeadlineSet s ∧ s.seq.pend.toNat + 1 = s.time.toNat ∧ s.seq.pstart.toNat < s.seq.pend.toNat
          ∧ s.seq.pstart.toNat ≤ s.seq.deadline.toNat)
    ∧ (s.phase = .usRearm → s.seq.outcome = .ok → s.seq.pstart.toNat < s.seq.pend.toNat)

/-- The launch premise of R21 (no counter wraps within the machine's life), a pulse width of the same kind, and the
clock for which R233 says that `TO` fits its register. -/
abbrev TimeInRange (s : State) : Prop :=
  s.time.toNat < 2 ^ 63 ∧ s.params.trigTicks.toNat < 2 ^ 62 ∧ s.params.oscHz < 2 ^ 32

end Sys2Proof.Machine
end

