-- ==== Sys2Proof/Certificates/Slice0/Obligations.lean ====
section
/-! DEFINITION. The statements for the provers. Rule numbers are those of spec/; "derived" statements rest on several
rules or on the model's own form (one step is one tick, log 1). A statement about runs gives the number of ticks. -/

open Sys2Proof Sys2Proof.Machine

/-! ## Encoding -/

/-- Decode and encode agree: the word of every well-formed command decodes to it (R91, R93, R96, R97). -/
def Obligations.DecodeOfEncode : Prop :=
  ∀ i : Instr, i.wf = true → decode (encode i) = .ok i

/-- Every word that decodes is the one word of a well-formed command: no bit of a legal word is ignored (R93, R97). -/
def Obligations.EncodeOfDecode : Prop :=
  ∀ (w : Word) (i : Instr), decode w = .ok i → i.wf = true ∧ encode i = w

/-- The worked encodings, legal and illegal (R101), and the layout of the response word (R94). -/
def Obligations.WorkedEncodings : Prop :=
  (decode 0x0100000000000032 = .ok (.cfgfreq 50)
    ∧ decode 0x0200000000000064 = .ok (.bound 100)
    ∧ decode 0x02000000FFFFEC78 = .ok (.bound (-5000))
    ∧ decode 0x03030000000003E8 = .ok (.setpwm 3 1000 0)
    ∧ decode 0x030300C8000003E8 = .ok (.setpwm 3 1000 200)
    ∧ decode 0x0400000000000FFF = .ok (.setduty 0 4095)
    ∧ decode 0x050F0000000005DC = .ok (.setservo 15 1500)
    ∧ decode 0x08FE000000000079 = .ok (.regwr 0xFE 121)
    ∧ decode 0x0900000000000000 = .ok (.regrd 0x00)
    ∧ decode 0x1000000200000190 = .ok (.uscfg 2 400 false)
    ∧ decode 0x1001000200000190 = .ok (.uscfg 2 400 true)
    ∧ decode 0x1103000000000000 = .ok (.measure 3)
    ∧ decode 0x1200000000000000 = .ok .usrel
    ∧ decode 0x1800000000007477 = .ok (.sos 29815))
  ∧ (∀ w ∈ ([0x0000000000000000, 0x0100000000000000, 0x0101000000000032, 0x1100000000000000, 0x110A000000000000,
      0x1002000200000190, 0x0400000100000000] : List Word), ∃ e, decode w = .error e)
  ∧ ∀ r : Resp, r.word.extractLsb' 56 8 = r.rstat ∧ r.word.extractLsb' 48 8 = r.rkind
    ∧ r.word.extractLsb' 40 8 = r.rexp ∧ r.word.extractLsb' 32 8 = 0 ∧ r.word.extractLsb' 0 32 = r.rval

/-! ## The tick -/

/-- A step runs the decoded command: in IDLE, with a word presented that decodes to `i`, the step is `exec i` on the
state in which the divider has advanced, `CMD` holds the word and `RESP_VALID` is 0, and then the clock edge: `TIME`
and the environment advance, and a corrupt controller's counters are drawn (R22, R25, R97, R160, R11). That a step is a
tick is the model's choice, log 1; the draw is log 7. -/
def Obligations.StepRunsDecodedCommand : Prop :=
  ∀ (s : State) (i : Instr), s.running → s.presents i →
    ∃ t, exec i { s with
          ctl := s.ctl.tick s.params, cmd := s.inputs.cmd, resp := { s.resp with valid := false } } = .next t
      ∧ step s = .next { t with
          time := t.time + 1, env := t.env.advance, ctl := t.ctl.drawIfCorrupt t.env.drawNo }

/-- The presented word that the decoder rejects is answered IllegalCommand at its tick and latched; nothing else
happens but the tick itself: `TIME`, the divider and the environment advance (R98, R286; the whole state after). -/
def Obligations.IllegalWordAnswered : Prop :=
  ∀ (s : State) (e : DecodeError), s.running → s.phase = .idle → s.inputs.cmdValid = true →
    decode s.inputs.cmd = .error e →
      step s = .next { s with
        cmd := s.inputs.cmd
        resp := ⟨true, 6, 0, 0, 0⟩
        time := s.time + 1
        env := s.env.advance
        ctl := (s.ctl.tick s.params).drawIfCorrupt s.env.drawNo }

/-- While a command is in flight, what the host presents has no effect on the step (R22). -/
def Obligations.BusyBlockTakesNoCommand : Prop :=
  ∀ (s : State) (valid : Bool) (w : Word), s.phase ≠ .idle →
    step { s with env := { s.env with pins := { s.env.pins with cmdValid := valid, cmd := w } } } = step s

/-- With legal parameters every step goes on, whatever the state, the word presented and the environment: errors are
responses (R97, R290, R293). -/
def Obligations.StepGoesOn : Prop :=
  ∀ s : State, paramsOk s.params = true → ∃ t, step s = .next t

/-- A parameter set that breaks a constraint of R7 is refused. -/
def Obligations.BadParametersRefused : Prop :=
  ∀ s : State,
    (255 < s.params.regChBase.toNat + 4 * s.params.nch - 1
      ∨ (s.params.regChBase.toNat ≤ s.params.regMode.toNat
          ∧ s.params.regMode.toNat < s.params.regChBase.toNat + 4 * s.params.nch)
      ∨ (s.params.regChBase.toNat ≤ s.params.regPrescale.toNat
          ∧ s.params.regPrescale.toNat < s.params.regChBase.toNat + 4 * s.params.nch)
      ∨ s.params.regMode = s.params.regPrescale
      ∨ (∀ b < 7, s.params.sleepMask ≠ BitVec.ofNat 8 (2 ^ b))
      ∨ s.params.sosDefaultMmS = 0 ∨ s.params.trigTicks = 0 ∨ s.params.settleTicks = 0) →
    step s = .refused .badParameters

/-- A tick at which `rst = 1` gives every register its reset value whatever was in flight (R310, R20). `PRESCALE`,
which the spec draws, is left open. -/
def Obligations.ResetTickClearsState : Prop :=
  ∀ s : State, paramsOk s.params = true → s.inputs.rst = true →
    ∃ (t : State) (x : Byte), step s = .next t ∧ t.time = 0 ∧ t.phase = .idle ∧ t.cmd = 0 ∧ t.waitCnt = 0
      ∧ t.accno = 0 ∧ t.resp = ⟨false, 0, 0, 0, 0⟩ ∧ t.drv = ⟨0, 0, 0, 0, 0, 0, 0, 0⟩
      ∧ t.ctl = ⟨0x00, x, [], 0, 0, false⟩
      ∧ t.seq = ⟨false, 0, 0, false, .hiz, .hiz, false, 0, 0, 0, 0, 0, 0, 0, 0, .none⟩ ∧ t.params = s.params

/-- After reset, whatever `PRESCALE` drew: every channel output is low, the trigger is not driven, the block is ready
and shows no response (R312, R311), and all this still holds after any tick at which no reset and no command comes. -/
def Obligations.ResetPinsAreSafe : Prop :=
  ∀ (p : Config.Params) (e : Env) (x : Byte), paramsOk p = true →
    ∀ s, s = State.resetWith p e x →
      ((∀ ch, s.pwmOut ch = false) ∧ s.seq.trigPin = none ∧ s.cmdReady = true ∧ s.respValid = false)
      ∧ (e.pins.rst = false → e.pins.cmdValid = false →
          ∃ t, step s = .next t ∧ (∀ ch, t.pwmOut ch = false) ∧ t.seq.trigPin = none ∧ t.cmdReady = true
            ∧ t.respValid = false)

/-- `TIME` advances by one at every tick without reset, in every phase (R21), below the launch premise of R21. -/
def Obligations.TimeAdvancesEveryTick : Prop :=
  ∀ s t : State, s.running → s.time.toNat < 2 ^ 63 → step s = .next t → t.time.toNat = s.time.toNat + 1

/-! ## CFGFREQ -/

/-- The prescale is the nearest integer to `OSC_HZ / (4096 f)`, a tie going up, less one (R123). -/
def Obligations.PrescaleIsNearest : Prop :=
  ∀ oscHz f : Nat, 1 ≤ f →
    (2 * (presc oscHz f + 1) - 1) * (4096 * f) ≤ 2 * (oscHz : Int)
      ∧ 2 * (oscHz : Int) < (2 * (presc oscHz f + 1) + 1) * (4096 * f)

/-- The facts about the prescale at 25 MHz, and the tie of another clock (R124). -/
def Obligations.PrescaleFactsAtDefaultClock : Prop :=
  (∀ f : Nat, 1 ≤ f → ((0 ≤ presc 25000000 f ∧ presc 25000000 f ≤ 255) ↔ (24 ≤ f ∧ f ≤ 12207)))
    ∧ presc 25000000 24 = 253 ∧ presc 25000000 12207 = 0 ∧ presc 25000000 23 = 264
    ∧ presc 25000000 12208 = -1 ∧ presc 25000000 1 = 6103 ∧ presc 25000000 65535 = -1
    ∧ (∀ f k : Nat, 1 ≤ f → 2 * 25000000 ≠ (2 * k + 1) * (4096 * f))
    ∧ presc 12288 2 = 1

/-- CFGFREQ with a prescale that fits is accepted: `PRE` holds it and the mode read begins; nothing else changes
(R125). -/
def Obligations.CfgfreqAccepted : Prop :=
  ∀ (s : State) (freq : BitVec 16), 0 ≤ presc s.params.oscHz freq.toNat → presc s.params.oscHz freq.toNat ≤ 255 →
    exec (.cfgfreq freq) s = .next { s with
      drv := { s.drv with pre := BitVec.ofInt 8 (presc s.params.oscHz freq.toNat) }
      phase := .cfRead
      waitCnt := s.env.busLat s.accno }

/-- CFGFREQ with a prescale outside 0..255 answers PrescaleRange with the prescale as 32-bit two's complement; nothing
else changes (R289, R290). -/
def Obligations.CfgfreqOutOfRangeRefused : Prop :=
  ∀ (s : State) (freq : BitVec 16),
    (presc s.params.oscHz freq.toNat < 0 ∨ 255 < presc s.params.oscHz freq.toNat) →
    exec (.cfgfreq freq) s = .next { s with
      resp := ⟨true, 9, 0, 0, BitVec.ofInt 32 (presc s.params.oscHz freq.toNat)⟩
      phase := .idle }

/-- A CFGFREQ whose five accesses succeed ends after their latencies and the settle time with the new prescale in
place, the mode byte as it was, the counters restarted unless the timing is corrupt, `FREQ` updated, and the prescale
as its answer; channel registers and ranging state are untouched (R126, R163, R170, R328). A sleeping controller stays
asleep (R322). The premise on bit 7 is part of `CtlInv`, stated on its own below; `TIME` is stated under R21's launch
premise (log 6). -/
def Obligations.CfgfreqCompletes : Prop :=
  ∀ (s : State) (freq : BitVec 16) (n : Nat), s.presents (.cfgfreq freq) →
    0 ≤ presc s.params.oscHz freq.toNat → presc s.params.oscHz freq.toNat ≤ 255 →
    n = 1 + s.latencies 5 + s.params.settleTicks.toNat → s.runningFor n → s.accessesSucceed 5 →
    s.ctl.mode.getLsbD 7 = false →
    ∃ t, s.run n = .next t ∧ t.phase = .idle
      ∧ t.resp = ⟨true, 0, 1, 0, BitVec.ofInt 32 (presc s.params.oscHz freq.toNat)⟩
      ∧ t.ctl = { s.ctl with
          prescale := BitVec.ofInt 8 (presc s.params.oscHz freq.toNat), psc := t.ctl.psc, step := t.ctl.step }
      ∧ (s.ctl.timingCorrupt = false → t.ctl.psc = 0 ∧ t.ctl.step = 0)
      ∧ t.drv = { s.drv with
          freq := freq, oldMode := s.ctl.mode, pre := BitVec.ofInt 8 (presc s.params.oscHz freq.toNat) }
      ∧ t.accno = s.accno + 5 ∧ t.seq = s.seq ∧ t.params = s.params ∧ t.cmd = s.inputs.cmd
      ∧ (s.time.toNat + n < 2 ^ 63 → t.time.toNat = s.time.toNat + n)

/-- `FREQ` changes only at reset or where a CFGFREQ's restart write completes, and then to that command's operand
(R26, R126). -/
def Obligations.FreqChangesOnlyByCfgfreq : Prop :=
  ∀ s t : State, step s = .next t → t.drv.freq ≠ s.drv.freq →
    s.inputs.rst = true ∨ (s.lastTick .cfRestart ∧ s.busFails = false ∧ t.drv.freq = fieldC16 s.cmd)

/-! ## BOUND -/

/-- BOUND's answer: the clamped magnitude, or in strict mode the magnitude or RangeError; nothing else changes
(R128). -/
def Obligations.BoundResult : Prop :=
  ∀ (s : State) (v : BitVec 32),
    exec (.bound v) s = .next { s with
      phase := .idle
      resp :=
        if s.params.pwmStrict = false then
          ⟨true, 0, 1, 0, BitVec.ofNat 32 (min v.toInt.natAbs (2 ^ s.params.res - 1))⟩
        else if v.toInt < 0 ∨ 2 ^ s.params.res - 1 < v.toInt.natAbs then
          ⟨true, 2, 0, 0, BitVec.ofNat 32 v.toInt.natAbs⟩
        else ⟨true, 0, 1, 0, BitVec.ofNat 32 v.toInt.natAbs⟩ }

/-- The laws of BOUND in non-strict mode (R129). -/
def Obligations.BoundLaws : Prop :=
  ∀ s : State, s.params.pwmStrict = false → 1 ≤ s.params.res → s.params.res ≤ 16 →
    ∃ f : BitVec 32 → BitVec 32,
      (∀ v, exec (.bound v) s = .next { s with resp := ⟨true, 0, 1, 0, f v⟩, phase := .idle })
        ∧ (∀ v, (f v).toNat ≤ 2 ^ s.params.res - 1)
        ∧ (∀ d, 0 ≤ d.toInt → f (-d) = f d)
        ∧ f (BitVec.ofNat 32 (2 ^ s.params.res - 1)) = BitVec.ofNat 32 (2 ^ s.params.res - 1)
        ∧ f (BitVec.ofNat 32 (2 ^ s.params.res)) = BitVec.ofNat 32 (2 ^ s.params.res - 1)
        ∧ f 0 = 0
        ∧ f 0x80000000 = BitVec.ofNat 32 (2 ^ s.params.res - 1)
        ∧ (s.params.res = 16 → 2 ^ s.params.res - 1 = 65535)

/-! ## SETPWM, SETDUTY, SETSERVO -/

/-- The codec splits and joins without loss (R120, R121). -/
def Obligations.SplitAndJoinAreInverse : Prop :=
  (∀ v : BitVec 16, (split16 v).1.toNat = v.toNat % 256 ∧ (split16 v).2.toNat = v.toNat / 256
      ∧ join16 (split16 v).1 (split16 v).2 = v)
    ∧ (∀ l h : Byte, split16 (join16 l h) = (l, h) ∧ join16 l h = h ++ l
      ∧ join16 l h = l.setWidth 16 ||| h.setWidth 16 <<< 8)

/-- The servo conversion multiplies first, then floors, and loses nothing (R135). -/
def Obligations.ServoConversionIsExact : Prop :=
  ∀ us : BitVec 16, (servoSteps us).toNat = us.toNat * 4096 / 20000 ∧ (servoSteps us).toNat ≤ 13421
    ∧ (4096 ≤ (servoSteps us).toNat ↔ 20000 ≤ us.toNat)

/-- A channel command on an existing channel is accepted: the address and the four bytes are in place and the first
write begins; nothing else changes (R130, R133, R135). -/
def Obligations.ChannelCommandsAccepted : Prop :=
  ∀ (s : State) (i : Instr) (ch : BitVec 8) (off on : BitVec 16),
    (i = .setpwm ch off on ∨ (i = .setduty ch off ∧ on = 0)
      ∨ ∃ us : BitVec 16, i = .setservo ch us ∧ off.toNat = us.toNat * 4096 / 20000 ∧ on = 0) →
    ch.toNat < s.params.nch →
    exec i s = .next { s with
      drv := { s.drv with
        waddr := BitVec.ofNat 8 (s.params.regChBase.toNat + 4 * ch.toNat)
        wdata0 := on.setWidth 8
        wdata1 := (on >>> 8).setWidth 8
        wdata2 := off.setWidth 8
        wdata3 := (off >>> 8).setWidth 8 }
      phase := .spW0
      waitCnt := s.env.busLat s.accno }

/-- A channel command on a channel that does not exist answers ChannelRange with the channel; nothing else changes, no
register access is made (R287, R290). -/
def Obligations.ChannelOutOfRangeRefused : Prop :=
  ∀ (s : State) (ch : BitVec 8) (x y : BitVec 16), s.params.nch ≤ ch.toNat →
    ∀ i ∈ [Instr.setpwm ch x y, Instr.setduty ch x, Instr.setservo ch x],
      exec i s = .next { s with resp := ⟨true, 7, 0, 0, ch.setWidth 32⟩, phase := .idle }

/-- A channel command whose four writes succeed ends after their latencies with `ON[ch] = on` and `OFF[ch] = off`;
every other register address reads as before; `FREQ`, `OLDMODE`, `PRE`, `TIMING_CORRUPT`, the ranging state and the
parameters are unchanged, `CMD` holds the word, `ACCNO` is four higher (R131, R133, R135, R139, R328). `TIME` is stated
under R21's launch premise (log 6). -/
def Obligations.ChannelCommandCompletes : Prop :=
  ∀ (s : State) (i : Instr) (ch : BitVec 8) (off on : BitVec 16) (n : Nat),
    (i = .setpwm ch off on ∨ (i = .setduty ch off ∧ on = 0)
      ∨ ∃ us : BitVec 16, i = .setservo ch us ∧ off.toNat = us.toNat * 4096 / 20000 ∧ on = 0) →
    s.presents i → ch.toNat < s.params.nch → n = 1 + s.latencies 4 → s.runningFor n → s.accessesSucceed 4 →
    s.ctl.chreg.wf = true →
    ∃ t, s.run n = .next t ∧ t.phase = .idle ∧ t.resp = ⟨true, 0, 0, 0, 0⟩
      ∧ t.ctl.onStep t.params ch.toNat = on ∧ t.ctl.offStep t.params ch.toNat = off
      ∧ (∀ addr : Byte,
          ¬ (s.params.regChBase.toNat + 4 * ch.toNat ≤ addr.toNat
            ∧ addr.toNat < s.params.regChBase.toNat + 4 * ch.toNat + 4) → t.peek addr = s.peek addr)
      ∧ t.accno = s.accno + 4 ∧ t.drv.freq = s.drv.freq ∧ t.drv.oldMode = s.drv.oldMode ∧ t.drv.pre = s.drv.pre
      ∧ t.ctl.timingCorrupt = s.ctl.timingCorrupt ∧ t.seq = s.seq ∧ t.params = s.params ∧ t.cmd = s.inputs.cmd
      ∧ (s.time.toNat + n < 2 ^ 63 → t.time.toNat = s.time.toNat + n)

/-- The torn update (R71, R131, R161, R318): each of the four writes stores its one byte and leaves every other register
address as it was, so between the writes the channel holds new and old bytes; the counters are not restarted, they do
what the divider does (those of a corrupt controller are free, R163). -/
def Obligations.ChannelWritesOneByteAtATime : Prop :=
  ∀ (s : State) (ph next : Phase) (k : Byte) (b : Byte),
    (ph, next, k, b) ∈ [(Phase.spW0, Phase.spW1, 0#8, s.drv.wdata0), (.spW1, .spW2, 1#8, s.drv.wdata1),
      (.spW2, .spW3, 2#8, s.drv.wdata2), (.spW3, .idle, 3#8, s.drv.wdata3)] →
    s.running → s.lastTick ph → s.busFails = false → s.ctl.chreg.wf = true →
    isChannelReg s.params (s.drv.waddr + k) = true →
    ∃ t, step s = .next t ∧ t.phase = next ∧ t.peek (s.drv.waddr + k) = b
      ∧ (∀ addr, addr ≠ s.drv.waddr + k → t.peek addr = s.peek addr)
      ∧ t.ctl.timingCorrupt = s.ctl.timingCorrupt
      ∧ (s.ctl.timingCorrupt = false → t.ctl = { s.ctl.tick s.params with chreg := t.ctl.chreg })
      ∧ t.resp = (if ph = .spW3 then ⟨true, 0, 0, 0, 0⟩ else s.resp)
      ∧ t.accno = s.accno + 1 ∧ t.drv = s.drv ∧ t.seq = s.seq

/-! ## REGWR, REGRD -/

/-- REGWR and REGRD are accepted in every state: the operands are in place and the access begins; nothing else changes
(R137, R138). -/
def Obligations.RawAccessAccepted : Prop :=
  ∀ (s : State) (reg byte : BitVec 8),
    exec (.regwr reg byte) s = .next { s with
        drv := { s.drv with waddr := reg, wdata0 := byte }, phase := .rgWr, waitCnt := s.env.busLat s.accno }
      ∧ exec (.regrd reg) s = .next { s with
        drv := { s.drv with waddr := reg }, phase := .rgRd, waitCnt := s.env.busLat s.accno }

/-- A REGWR whose access succeeds answers OK; the register reads back as its kind says (`MODE` without bit 7,
`PRESCALE` only if written asleep, a channel register as written, an unimplemented address 0), every other register
address reads as before, and a prescale write awake sets `TIMING_CORRUPT` (R137, R68 to R70, R161 to R163). -/
def Obligations.RegwrCompletes : Prop :=
  ∀ (s : State) (reg byte : BitVec 8) (n : Nat), s.presents (.regwr reg byte) → n = 1 + s.latencies 1 →
    s.runningFor n → s.accessesSucceed 1 → s.ctl.chreg.wf = true →
    ∃ t, s.run n = .next t ∧ t.phase = .idle ∧ t.resp = ⟨true, 0, 0, 0, 0⟩
      ∧ t.peek reg =
          (if reg = s.params.regMode then byte &&& 0x7F
          else if reg = s.params.regPrescale then
            if s.ctl.mode &&& s.params.sleepMask ≠ 0 then byte else s.ctl.prescale
          else if isChannelReg s.params reg then byte else 0)
      ∧ (∀ addr, addr ≠ reg → t.peek addr = s.peek addr)
      ∧ t.ctl.timingCorrupt =
          (s.ctl.timingCorrupt || (reg == s.params.regPrescale && s.ctl.mode &&& s.params.sleepMask == 0))
      ∧ t.accno = s.accno + 1 ∧ t.drv = { s.drv with waddr := reg, wdata0 := byte } ∧ t.seq = s.seq
      ∧ t.params = s.params

/-- A REGRD whose access succeeds answers the byte at the register address; every register address, `TIMING_CORRUPT`,
the ranging state and the parameters are unchanged, of the driver only `WADDR` is written, `ACCNO` is one higher (R138,
R64). -/
def Obligations.RegrdCompletes : Prop :=
  ∀ (s : State) (reg : BitVec 8) (n : Nat), s.presents (.regrd reg) → n = 1 + s.latencies 1 →
    s.runningFor n → s.accessesSucceed 1 →
    ∃ t, s.run n = .next t ∧ t.phase = .idle ∧ t.resp = ⟨true, 0, 1, 0, (s.peek reg).setWidth 32⟩
      ∧ (∀ addr, t.peek addr = s.peek addr) ∧ t.ctl.timingCorrupt = s.ctl.timingCorrupt
      ∧ t.accno = s.accno + 1 ∧ t.drv = { s.drv with waddr := reg } ∧ t.seq = s.seq ∧ t.params = s.params

/-! ## USCFG, USREL, SOS -/

/-- USCFG: the three checks in their order, each an error that changes nothing else; otherwise the configuration is
stored, the unit is ready and its pins are armed (R192, R281). -/
def Obligations.UscfgRule : Prop :=
  ∀ (s : State) (minCm maxCm : BitVec 16) (strict : Bool),
    exec (.uscfg minCm maxCm strict) s =
      if minCm.toNat = 0 then .next { s with resp := ⟨true, 1, 0, 0, 1⟩, phase := .idle }
      else if maxCm.toNat < minCm.toNat then .next { s with resp := ⟨true, 1, 0, 0, 2⟩, phase := .idle }
      else if s.seq.usReady = true then .next { s with resp := ⟨true, 1, 0, 0, 3⟩, phase := .idle }
      else .next { s with
        resp := ⟨true, 0, 0, 0, 0⟩
        phase := .idle
        seq := { s.seq with
          usMin := minCm, usMax := maxCm, usStrict := strict, usReady := true
          trigMode := .out, trig := false, echoMode := if s.params.sharedPin then .hiz else .inp } }

/-- USREL: releases the pins of a constructed range finder, else NotConfigured (R210). -/
def Obligations.UsrelRule : Prop :=
  ∀ s : State,
    exec .usrel s =
      if s.seq.usReady = false then .next { s with resp := ⟨true, 8, 0, 0, 0⟩, phase := .idle }
      else .next { s with
        resp := ⟨true, 0, 0, 0, 0⟩
        phase := .idle
        seq := { s.seq with usReady := false, trigMode := .hiz, echoMode := .hiz, trig := false } }

/-- `US_READY` changes only by a reset, an accepted USCFG (to 1) or an accepted USREL (to 0); `US_MIN`, `US_MAX` and
`US_STRICT` only by a reset or an accepted USCFG, and then to its operands (R34, R42). -/
def Obligations.ReadinessChangesOnlyByItsCommands : Prop :=
  ∀ s t : State, step s = .next t →
    (t.seq.usReady ≠ s.seq.usReady →
      s.inputs.rst = true
        ∨ (s.presents .usrel ∧ t.seq.usReady = false)
        ∨ (∃ minCm maxCm strict, s.presents (.uscfg minCm maxCm strict) ∧ t.seq.usReady = true))
    ∧ (t.seq.usMin ≠ s.seq.usMin ∨ t.seq.usMax ≠ s.seq.usMax ∨ t.seq.usStrict ≠ s.seq.usStrict →
      s.inputs.rst = true
        ∨ (∃ minCm maxCm strict, s.presents (.uscfg minCm maxCm strict)
            ∧ t.seq.usMin = minCm ∧ t.seq.usMax = maxCm ∧ t.seq.usStrict = strict))

/-- SOS answers the integer nearest to `2005 * sqrt(temp_ck)` and changes nothing else (R231, R236). -/
def Obligations.SosAnswersNearestSpeed : Prop :=
  ∀ (s : State) (tempCk : BitVec 16),
    ∃ v : Nat, v < 2 ^ 32
      ∧ exec (.sos tempCk) s = .next { s with resp := ⟨true, 0, 1, 0, BitVec.ofNat 32 v⟩, phase := .idle }
      ∧ (v = 0 ∨ (2 * v - 1) * (2 * v - 1) ≤ 4 * (4020025 * tempCk.toNat))
      ∧ 4 * (4020025 * tempCk.toNat) < (2 * v + 1) * (2 * v + 1)

/-- The values and laws of the speed of sound (R232). -/
def Obligations.SosValuesAndLaws : Prop :=
  sosMm 27315 = 331371 ∧ sosMm 29815 = 346204 ∧ sosMm 31315 = 354806 ∧ sosMm 0 = 0 ∧ sosMm 1 = 2005
    ∧ sosMm 25315 = 319009 ∧ sosMm 30000 = 347276 ∧ sosMm 65535 = 513276
    ∧ (∀ a b : BitVec 16, a.toNat ≤ b.toNat → (sosMm a).toNat ≤ (sosMm b).toNat)
    ∧ ∀ a : BitVec 16, sosMm a = 0 ↔ a = 0

/-! ## Errors and frames of acceptance -/

/-- An error at acceptance leaves the whole state unchanged but for the response registers (R291; `CMD` is latched
before). -/
def Obligations.AcceptanceErrorsArePrecise : Prop :=
  ∀ (i : Instr) (s t : State), s.phase = .idle → exec i s = .next t → t.phase = .idle → t.resp.rstat ≠ 0 →
    t = { s with resp := t.resp } ∧ t.resp.valid = true ∧ t.resp.rkind = 0 ∧ t.resp.rexp = 0

/-- No command's acceptance touches the controller, the time, the access counter, the latched word, the parameters or
the environment: every register address reads as before (R139, R60). -/
def Obligations.AcceptanceLeavesController : Prop :=
  ∀ (i : Instr) (s t : State), exec i s = .next t →
    t.ctl = s.ctl ∧ (∀ addr, t.peek addr = s.peek addr) ∧ t.time = s.time ∧ t.accno = s.accno ∧ t.cmd = s.cmd
      ∧ t.params = s.params ∧ t.env = s.env

/-- MEASURE and USREL without a construction answer NotConfigured, the pins untouched (R288, R197, R290). -/
def Obligations.NotConfiguredRefused : Prop :=
  ∀ (s : State) (nsig : BitVec 8), s.seq.usReady = false → ∀ i ∈ [Instr.measure nsig, Instr.usrel],
    exec i s = .next { s with resp := ⟨true, 8, 0, 0, 0⟩, phase := .idle }

/-! ## MEASURE -/

/-- MEASURE acceptance with a usable speed of sound and no hardware error starts the trigger pulse with its deadline;
nothing but the sequencer changes (R198, R199, R200, R233). `TO` and `DEADLINE` are exact wherever they fit their 64
bits, which R21's launch premise and R233 ensure; beyond them they are free (`fit64`, log 12, log 24). A legal operand
fits `NSIG` (R93). -/
def Obligations.MeasureAccepted : Prop :=
  (∀ (s : State) (nsig : BitVec 8) (v : BitVec 32) (temp : BitVec 16) (tmo : BitVec 64), s.seq.usReady = true →
    (v, temp) = (if s.params.thermPresent then (sosMm s.inputs.temp, s.inputs.temp)
      else (s.params.sosDefaultMmS, 29815)) →
    s.inputs.hwErr = false → v ≠ 0 → tmo = fit64 (20 * s.seq.usMax.toNat * s.params.oscHz / v.toNat) →
    exec (.measure nsig) s = .next { s with
      seq := { s.seq with
        nsig := nsig.setWidth 4, temp := temp, v := v, timeout := tmo, now := s.time
        deadline := fit64 (s.time.toNat + s.params.trigTicks.toNat + tmo.toNat)
        trigMode := .out, trig := true
        echoMode := if s.params.sharedPin then .hiz else s.seq.echoMode }
      phase := .usTrig
      waitCnt := s.params.trigTicks })
  ∧ (∀ n < 2 ^ 64, (fit64 n).toNat = n)
  ∧ ∀ nsig : BitVec 8, nsig.toNat ≤ 9 → (nsig.setWidth 4).toNat = nsig.toNat

/-- MEASURE acceptance with a hardware error or a speed of 0 goes straight to the re-arm, the pins untouched (R198,
R200, R206). -/
def Obligations.MeasureFailsBeforePulse : Prop :=
  ∀ (s : State) (nsig : BitVec 8) (v : BitVec 32) (temp : BitVec 16), s.seq.usReady = true →
    (v, temp) = (if s.params.thermPresent then (sosMm s.inputs.temp, s.inputs.temp)
      else (s.params.sosDefaultMmS, 29815)) →
    s.inputs.hwErr = true ∨ v = 0 →
    exec (.measure nsig) s = .next { s with
      seq := { s.seq with nsig := nsig.setWidth 4, temp := temp, v := v, outcome := .hwErr }
      phase := .usRearm
      waitCnt := 1 }

/-- A MEASURE whose echo never rises ends `TRIG_TICKS + TO + 2` ticks after its acceptance tick with the absence value,
or in strict mode with TimeoutCondition, and leaves the pins armed (R202, R205 (a), R207, R208, R328). -/
def Obligations.MeasureWithoutEcho : Prop :=
  ∀ (s : State) (nsig : BitVec 8) (tmo : Nat), s.presents (.measure nsig) → s.seq.usReady = true →
    s.seq.outcome = .none → s.soundSpeed ≠ 0 →
    tmo = 20 * s.seq.usMax.toNat * s.params.oscHz / s.soundSpeed.toNat →
    s.time.toNat + s.params.trigTicks.toNat + tmo + 3 < 2 ^ 64 →
    s.runningFor (s.params.trigTicks.toNat + tmo + 3) →
    (∀ j < s.params.trigTicks.toNat + tmo + 2, (s.pinsAt j).hwErr = false) →
    (∀ j < s.params.trigTicks.toNat + tmo + 2, s.params.trigTicks.toNat < j → (s.pinsAt j).echo = false) →
    ∃ t, s.run (s.params.trigTicks.toNat + tmo + 3) = .next t ∧ t.phase = .idle
      ∧ t.resp = (if s.seq.usStrict then ⟨true, 4, 0, 0, 0⟩ else ⟨true, 0, 3, 0, 0⟩)
      ∧ t.seq.trigMode = .out ∧ t.seq.trig = false
      ∧ t.seq.echoMode = armedEcho s.params
      ∧ t.seq.outcome = .none ∧ t.seq.usReady = true ∧ t.seq.usMin = s.seq.usMin ∧ t.seq.usMax = s.seq.usMax
      ∧ t.seq.usStrict = s.seq.usStrict
      ∧ (∀ addr, t.peek addr = s.peek addr) ∧ t.drv = s.drv ∧ t.accno = s.accno

/-- A MEASURE that samples its echo high from tick `h` to tick `l − 1` after acceptance, the low samples before it
within the deadline, ends at tick `l + 1` with the distance of a pulse of `l − h` ticks, and leaves the pins armed
(R201 to R203, R205 (c), R207, R208, R328). The exponent is exact wherever it fits 8 bits (`fitRexp`, log 24), which
`DistanceFitsResponse` says of every clock below 2^32 Hz. -/
def Obligations.MeasureWithEcho : Prop :=
  ∀ (s : State) (nsig : BitVec 8) (tmo h l : Nat), s.presents (.measure nsig) → s.seq.usReady = true →
    s.seq.outcome = .none → s.soundSpeed ≠ 0 →
    tmo = 20 * s.seq.usMax.toNat * s.params.oscHz / s.soundSpeed.toNat →
    s.params.trigTicks.toNat < h → h < l → h ≤ s.params.trigTicks.toNat + tmo + 1 →
    (s.params.fallDeadlineFix = false ∨ l ≤ s.params.trigTicks.toNat + tmo + 1) →
    s.time.toNat + s.params.trigTicks.toNat + tmo + l + 2 < 2 ^ 64 →
    s.runningFor (l + 2) → (∀ j < l + 1, (s.pinsAt j).hwErr = false) →
    (∀ j < h, s.params.trigTicks.toNat < j → (s.pinsAt j).echo = false) →
    (∀ j < l, h ≤ j → (s.pinsAt j).echo = true) → (s.pinsAt l).echo = false →
    ∃ t, s.run (l + 2) = .next t ∧ t.phase = .idle
      ∧ t.resp = ⟨true, 0, 2, fitRexp (distSig s.params.oscHz s.soundSpeed.toNat (l - h) nsig.toNat).2,
          BitVec.ofNat 32 (distSig s.params.oscHz s.soundSpeed.toNat (l - h) nsig.toNat).1⟩
      ∧ t.seq.trigMode = .out ∧ t.seq.trig = false
      ∧ t.seq.echoMode = armedEcho s.params
      ∧ t.seq.outcome = .none ∧ t.seq.usReady = true ∧ t.seq.usMin = s.seq.usMin ∧ t.seq.usMax = s.seq.usMax
      ∧ t.seq.usStrict = s.seq.usStrict
      ∧ (∀ addr, t.peek addr = s.peek addr) ∧ t.drv = s.drv ∧ t.accno = s.accno

/-- A hardware error during the pulse or a wait ends the measurement at the next tick with the absence value, in strict
mode too, the pins armed and the timestamps untouched (R206, R207, R208). -/
def Obligations.HardwareErrorGivesAbsence : Prop :=
  ∀ s : State, s.phase = .usTrig ∨ s.phase = .usRise ∨ s.phase = .usFall → s.runningFor 2 →
    s.inputs.hwErr = true →
    ∃ t, s.run 2 = .next t ∧ t.phase = .idle ∧ t.resp = ⟨true, 0, 3, 0, 0⟩
      ∧ t.seq = { s.seq with
          trigMode := .out, trig := false, outcome := .none
          echoMode := if s.params.sharedPin then .hiz else .inp }
      ∧ t.drv = s.drv ∧ t.accno = s.accno ∧ ∀ addr, t.peek addr = s.peek addr

/-- The known defect: by default, while the echo stays high, the falling-edge wait goes on for any number of ticks and
the block stays unready (R204, R320). -/
def Obligations.FallingWaitHangs : Prop :=
  ∀ (s : State) (n : Nat), s.phase = .usFall → s.params.fallDeadlineFix = false →
    s.seq.pstart.toNat ≤ s.seq.deadline.toNat → s.runningFor n →
    (∀ j < n, (s.pinsAt j).echo = true ∧ (s.pinsAt j).hwErr = false) →
    ∃ t, s.run n = .next t ∧ t.phase = .usFall ∧ t.cmdReady = false ∧ t.resp = s.resp

/-- The deadline of the falling-edge wait, on the timestamps of a measurement (`TimestampInv`, stated on its own below).
By default no such wait ends with a timeout (R204). With `FALL_DEADLINE_FIX` it ends at a high sample after the
deadline: the re-arm, then the absence value or TimeoutCondition (R203, R204, R207, R208). -/
def Obligations.FallingWaitTimeouts : Prop :=
  ∀ s : State, TimestampInv s → s.phase = .usFall →
    (s.params.fallDeadlineFix = false → ∀ t, step s = .next t → t.phase = .usRearm → t.seq.outcome ≠ .timeout)
    ∧ (s.params.fallDeadlineFix = true → s.runningFor 2 → s.inputs.echo = true → s.inputs.hwErr = false →
        s.seq.deadline.toNat < s.time.toNat →
        ∃ t, s.run 2 = .next t ∧ t.phase = .idle
          ∧ t.resp = (if s.seq.usStrict then ⟨true, 4, 0, 0, 0⟩ else ⟨true, 0, 3, 0, 0⟩)
          ∧ t.seq.pend = s.time ∧ t.seq.trigMode = .out ∧ t.seq.trig = false
          ∧ t.seq.echoMode = armedEcho s.params ∧ t.seq.outcome = .none)

/-! ## The register bus and the controller -/

/-- A failing access ends the command at its tick with TransportError and the number of accesses performed before it;
it is counted, and no register address, driver register or ranging register changes; the controller does at that tick
what its divider does (a corrupt one's counters are free), so no failed write restarts it (R66, R127 (c), R163, R283,
R291). -/
def Obligations.TransportErrorEndsCommand : Prop :=
  ∀ (s : State) (ph : Phase) (k : BitVec 32),
    (ph, k) ∈ [(Phase.cfRead, 0#32), (.cfSleep, 1), (.cfPresc, 2), (.cfRestore, 3), (.cfRestart, 4), (.spW0, 0),
      (.spW1, 1), (.spW2, 2), (.spW3, 3), (.rgWr, 0), (.rgRd, 0)] →
    s.running → s.lastTick ph →
    s.params.devAddr ≠ s.params.pwmDevAddr ∨ (s.env.busDraw s.accno).fail = true →
    ∃ t, step s = .next t ∧ t.phase = .idle ∧ t.resp = ⟨true, 3, 0, 0, k⟩ ∧ t.accno = s.accno + 1
      ∧ (∀ addr, t.peek addr = s.peek addr) ∧ t.ctl.timingCorrupt = s.ctl.timingCorrupt
      ∧ (s.ctl.timingCorrupt = false → t.ctl = s.ctl.tick s.params) ∧ t.drv = s.drv ∧ t.seq = s.seq

/-- Reading after a register write, for every address and byte: the write shows at its own address as that register's
kind says, and at no other (R68 to R70, R72 (d), R161 to R163). -/
def Obligations.ReadAfterRegisterWrite : Prop :=
  ∀ (p : Config.Params) (c : Ctl) (addr v a : Byte), paramsOk p = true → c.chreg.wf = true →
    (c.poke p addr v).peek p a =
      if a ≠ addr then c.peek p a
      else if addr = p.regMode then v &&& 0x7F
      else if addr = p.regPrescale then if c.mode &&& p.sleepMask ≠ 0 then v else c.prescale
      else if isChannelReg p addr then v else 0

/-- The frame of every tick without reset. A register address reads as before unless this tick's phase writes to it; the
address is the phase's own expression (`State.storeAddress`; R65, R69, R72). `CMD` takes the presented word at
acceptance and holds otherwise (R22). The response is cleared at acceptance, its other registers held, and written only
at the tick that answers (R22, R25). -/
def Obligations.TickStoresOnlyAtItsAddress : Prop :=
  ∀ s t : State, step s = .next t → s.inputs.rst = false →
    (∀ addr, s.storeAddress ≠ some addr → t.peek addr = s.peek addr)
    ∧ t.cmd = (if s.phase = .idle ∧ s.inputs.cmdValid = true then s.inputs.cmd else s.cmd)
    ∧ (s.phase = .idle → s.inputs.cmdValid = true → t.phase ≠ .idle → t.resp = { s.resp with valid := false })
    ∧ (s.phase = .idle → s.inputs.cmdValid = false → t.resp = s.resp ∧ t.phase = .idle)
    ∧ (s.phase ≠ .idle → t.phase ≠ .idle → t.resp = s.resp)
    ∧ (s.phase ≠ .idle ∨ s.inputs.cmdValid = true → t.phase = .idle → t.resp.valid = true)

/-- A mode write with the high bit set stores the byte without it and zeroes both counters; without the high bit it
leaves them to the divider; the counters of a corrupt controller are free (R162, R160, R163). -/
def Obligations.RestartZeroesCounters : Prop :=
  ∀ s t : State, s.running → s.lastTick .rgWr → s.drv.waddr = s.params.regMode → s.busFails = false →
    step s = .next t →
    t.ctl.mode = s.drv.wdata0 &&& 0x7F
      ∧ (s.ctl.timingCorrupt = false → s.drv.wdata0.getLsbD 7 = true → t.ctl.psc = 0 ∧ t.ctl.step = 0)
      ∧ (s.ctl.timingCorrupt = false → s.drv.wdata0.getLsbD 7 = false →
          t.ctl.psc = (s.ctl.tick s.params).psc ∧ t.ctl.step = (s.ctl.tick s.params).step)

/-- `TIMING_CORRUPT` is set only by REGWR's write of the prescale register while the oscillator runs, and cleared only
by reset (R32, R163); the premise is the controller's invariant, stated on its own below. -/
def Obligations.CorruptOnlyByRawPrescaleWrite : Prop :=
  ∀ s t : State, CtlInv s → step s = .next t →
    (s.ctl.timingCorrupt = false → t.ctl.timingCorrupt = true →
      s.lastTick .rgWr ∧ s.drv.waddr = s.params.regPrescale ∧ s.ctl.mode &&& s.params.sleepMask = 0)
    ∧ (s.ctl.timingCorrupt = true → t.ctl.timingCorrupt = !s.inputs.rst)

/-- The divider: while awake and sound a tick counts `PSC` up and wraps it, with a step, at `PRESCALE`, a step value
lasts `PRESCALE + 1` ticks, and a PWM cycle lasts `4096 * (PRESCALE + 1)` ticks (R164). -/
def Obligations.DividerRule : Prop :=
  ∀ (p : Config.Params) (c : Ctl), c.mode &&& p.sleepMask = 0 → c.timingCorrupt = false →
    (c.tick p = if c.prescale.toNat ≤ c.psc.toNat then
        { c with psc := 0, step := BitVec.ofNat 12 ((c.step.toNat + 1) % 4096) }
      else { c with psc := BitVec.ofNat 8 (c.psc.toNat + 1) })
    ∧ (c.psc = 0 → (Ctl.tick p)^[c.prescale.toNat + 1] c = { c with step := c.step + 1 })
    ∧ (c.psc = 0 → (Ctl.tick p)^[4096 * (c.prescale.toNat + 1)] c = c)

/-- The counters at every tick of a controller that is not corrupt. At a tick without a register write the controller
does what the divider does, and holds while it sleeps; at any tick the counters are zeroed by a taken mode write with
the high bit set (`State.restarts`) and do what the divider does otherwise, a channel or prescale write included (R160
to R162, R164, R165). A tick that sets `TIMING_CORRUPT` leaves them free (R163). -/
def Obligations.TickAdvancesDivider : Prop :=
  ∀ s t : State, s.running → step s = .next t → s.ctl.timingCorrupt = false →
    (s.storeAddress = none → t.ctl = s.ctl.tick s.params ∧ (s.ctl.mode &&& s.params.sleepMask ≠ 0 → t.ctl = s.ctl))
    ∧ (t.ctl.timingCorrupt = false →
        (s.restarts → t.ctl.psc = 0 ∧ t.ctl.step = 0)
        ∧ (¬ s.restarts → t.ctl.psc = (s.ctl.tick s.params).psc ∧ t.ctl.step = (s.ctl.tick s.params).step))

/-- The output comparator on in-range steps (R167). -/
def Obligations.ComparatorRule : Prop :=
  ∀ (s : State) (ch : Nat), ch < s.params.nch → s.ctl.timingCorrupt = false →
    (s.ctl.onStep s.params ch).toNat ≤ 4095 → (s.ctl.offStep s.params ch).toNat ≤ 4095 →
    (s.pwmOut ch = true ↔
      ((s.ctl.onStep s.params ch).toNat < (s.ctl.offStep s.params ch).toNat
          ∧ (s.ctl.onStep s.params ch).toNat ≤ s.ctl.step.toNat
          ∧ s.ctl.step.toNat < (s.ctl.offStep s.params ch).toNat)
        ∨ ((s.ctl.offStep s.params ch).toNat < (s.ctl.onStep s.params ch).toNat
          ∧ ((s.ctl.onStep s.params ch).toNat ≤ s.ctl.step.toNat
            ∨ s.ctl.step.toNat < (s.ctl.offStep s.params ch).toNat)))

/-- Of the 4096 steps of a cycle an output is high for `(OFF − ON) mod 4096`: for `ON = 0` the duty cycle is
`OFF / 4096`, and equal steps give always low (R134, R167, R168 (a)). -/
def Obligations.HighStepsOfACycle : Prop :=
  ∀ on off : Nat, on < 4096 → off < 4096 →
    (List.range 4096).countP (fun step => comparator on off step) = (off + 4096 - on) % 4096

/-! ## The converter -/

/-- Rounding to `n` significant figures: exactly `n` digits, and within half a unit of the last place (R235); and so for
the distance of a pulse, `V * W / (20 * OSC_HZ)` centimetres (R234). -/
def Obligations.RoundingIsNearest : Prop :=
  (∀ (q : Ratio) (n : Nat), 0 < q.num → 0 < q.den → 1 ≤ n → n ≤ 9 →
    10 ^ (n - 1) ≤ (roundSig q n).1 ∧ (roundSig q n).1 < 10 ^ n
      ∧ |((roundSig q n).1 : ℚ) * (10 : ℚ) ^ (roundSig q n).2 - (q.num : ℚ) / (q.den : ℚ)|
          ≤ (10 : ℚ) ^ (roundSig q n).2 / 2)
  ∧ ∀ oscHz v w n : Nat, 1 ≤ oscHz → 1 ≤ v → 1 ≤ w → 1 ≤ n → n ≤ 9 →
    10 ^ (n - 1) ≤ (distSig oscHz v w n).1 ∧ (distSig oscHz v w n).1 < 10 ^ n
      ∧ |((distSig oscHz v w n).1 : ℚ) * (10 : ℚ) ^ (distSig oscHz v w n).2 - (v * w : ℚ) / (20 * oscHz : ℚ)|
          ≤ (10 : ℚ) ^ (distSig oscHz v w n).2 / 2

/-- Every distance fits its response registers: at 25 MHz the exponent lies in −17..16 and the digits below `10^9`
(R235); at any clock below 2^32 Hz and any 32-bit speed the exponent fits `REXP`. -/
def Obligations.DistanceFitsResponse : Prop :=
  (∀ v w n : Nat, 1 ≤ v → v ≤ 513276 → 1 ≤ w → w < 2 ^ 64 → 1 ≤ n → n ≤ 9 →
    (distSig 25000000 v w n).1 < 10 ^ 9 ∧ -17 ≤ (distSig 25000000 v w n).2 ∧ (distSig 25000000 v w n).2 ≤ 16)
  ∧ ∀ oscHz v w n : Nat, 1 ≤ oscHz → oscHz < 2 ^ 32 → 1 ≤ v → v < 2 ^ 32 → 1 ≤ w → w < 2 ^ 64 → 1 ≤ n → n ≤ 9 →
    (distSig oscHz v w n).1 < 10 ^ 9 ∧ (fitRexp (distSig oscHz v w n).2).toInt = (distSig oscHz v w n).2

/-! ## Invariants -/

/-- Every step keeps the controller's invariant: `MODE` bit 7 is 0, the register space is canonical and holds channel
registers only, CFGFREQ writes the prescale asleep, channel commands write channel registers (R28, R61, R127 (e),
R130). -/
def Obligations.StepKeepsCtlInv : Prop :=
  ∀ s t : State, CtlInv s → step s = .next t → CtlInv t

/-- Every step keeps the sequencing invariant (R24, R34, R40, R93). -/
def Obligations.StepKeepsSequenceInv : Prop :=
  ∀ s t : State, SequenceInv s → step s = .next t → SequenceInv t

/-- Every step keeps the ranging pins as R190 and R212 say: released, armed, driven or listening by phase. -/
def Obligations.StepKeepsPinInv : Prop :=
  ∀ s t : State, SequenceInv s → PinInv s → step s = .next t → PinInv t

/-- Every step keeps the timestamps of a measurement in order, below the launch premises (`TimeInRange`; R21, R198, R201 to
R205, R233). -/
def Obligations.StepKeepsTimestampInv : Prop :=
  ∀ s t : State, TimeInRange s → SequenceInv s → TimestampInv s → step s = .next t → TimestampInv t

/-- The invariants hold after reset, for any parameters, any environment and any draw of `PRESCALE` (R310). -/
def Obligations.InvariantsHoldAfterReset : Prop :=
  ∀ (p : Config.Params) (e : Env) (x : Byte),
    CtlInv (State.resetWith p e x) ∧ SequenceInv (State.resetWith p e x) ∧ PinInv (State.resetWith p e x)
      ∧ TimestampInv (State.resetWith p e x)

/-! ## The host's steering routine -/

/-- The host's steering routine (the host as an agent outside the block is the model's choice, log 15). The rows of the
truth table (R262). A `move` on a constructed host issues BOUND on the magnitude (magnitudes of 2^31 and more are taken
modulo 2^32, the model's choice, log 15); answered RangeError it fails and writes nothing, whatever the maneuver (for
emergency-brake that is the model's choice too, R264 over the wording of E12, log 15); answered with a duty of 0, or
for emergency-brake, it stops the four wheels and writes no direction pin; for maintain-lane with another duty it fails;
else it writes the direction pins, the row reversed by a negative speed and inverted by the mounting flag, and then
issues the same duty to the four channels in order (R263 to R266). A SETDUTY answered TransportError ends it there, the
pins as they are; answered OK it goes on (R264). Teardown issues duty 0 to the four channels in order and releases the
direction pins at the fourth OK and not before (R267). -/
def Obligations.MoveDrivesAllWheelsAlike : Prop :=
  (∀ x ∈ [(Maneuver.straight, false, Wheels.mk false false false false), (.straight, true, ⟨true, true, true, true⟩),
      (.turnLeft, false, ⟨true, false, true, false⟩), (.turnLeft, true, ⟨false, true, false, true⟩),
      (.turnRight, false, ⟨false, true, false, true⟩), (.turnRight, true, ⟨true, false, true, false⟩)],
    steeringDir x.1 x.2.1 = some x.2.2)
  ∧ (∀ (nch : Nat) (h : SteeringHost nch) (speed : Int) (m : Maneuver) (reversing : Bool) (duty : BitVec 16) (w : Wheels)
      (r : Resp),
      h.task = .idle → h.claimed = h.cfg.pins → duty ≠ 0 →
      steeringDir m (reversing || decide (speed < 0)) = some w → r.rstat = 0 → r.rval = duty.setWidth 32 →
      (h.move speed m reversing).command = some (.bound (BitVec.ofNat 32 speed.natAbs))
        ∧ (h.move speed m reversing).receive r = { h with
            dirs := some (w.mounted h.cfg.reverseMounted)
            task := .programming (.setduty h.cfg.chFL duty)
              [.setduty h.cfg.chFR duty, .setduty h.cfg.chRL duty, .setduty h.cfg.chRR duty]
            error := none })
  ∧ (∀ (nch : Nat) (h : SteeringHost nch) (speed : Int) (m : Maneuver) (reversing : Bool) (r : Resp),
      h.task = .idle → h.claimed = h.cfg.pins →
      (r.rstat = 2 → (h.move speed m reversing).receive r =
          { h with task := .idle, error := some (.rangeError r.rval) })
        ∧ (r.rstat = 0 → r.rval = 0 ∨ m = .emergencyBrake → (h.move speed m reversing).receive r = { h with
            task := .programming (.setduty h.cfg.chFL 0)
              [.setduty h.cfg.chFR 0, .setduty h.cfg.chRL 0, .setduty h.cfg.chRR 0]
            error := none })
        ∧ (r.rstat = 0 → r.rval.setWidth 16 ≠ 0#16 → m = .maintainLane → (h.move speed m reversing).receive r =
          { h with task := .idle, error := some .unimplementedCapability }))
  ∧ (∀ (nch : Nat) (h : SteeringHost nch) (cmd : Instr) (rest : List Instr) (r : Resp), h.task = .programming cmd rest →
      (r.rstat = 3 → h.receive r = { h with task := .idle, error := some (.transportError r.rval) })
        ∧ (r.rstat = 0 → h.receive r = match rest with
            | [] => { h with task := .idle, error := none }
            | c :: l => { h with task := .programming c l }))
  ∧ ∀ (nch : Nat) (h : SteeringHost nch) (r₁ r₂ r₃ r₄ : Resp), h.task = .idle → h.claimed = h.cfg.pins →
      (∀ r ∈ [r₁, r₂, r₃, r₄], r.rstat = 0) →
      h.teardown.command = some (.setduty h.cfg.chFL 0)
        ∧ (h.teardown.receive r₁).command = some (.setduty h.cfg.chFR 0)
        ∧ ((h.teardown.receive r₁).receive r₂).command = some (.setduty h.cfg.chRL 0)
        ∧ (((h.teardown.receive r₁).receive r₂).receive r₃).command = some (.setduty h.cfg.chRR 0)
        ∧ (((h.teardown.receive r₁).receive r₂).receive r₃).claimed = h.claimed
        ∧ ((((h.teardown.receive r₁).receive r₂).receive r₃).receive r₄).claimed = []
        ∧ ((((h.teardown.receive r₁).receive r₂).receive r₃).receive r₄).task = .idle
end

