-- ==== Sys2Proof/Laws/Arith.lean ====
section
/-! SUPPORT. The exact arithmetic of 00_scope.md R9: integer square root, rounding, decimal logarithm. -/

namespace Sys2Proof.Machine

open Sys2Proof

/-! ## Integer square root -/

/-- The bits found so far stay a lower bound, and the next value stays out of reach. -/
theorem isqrtBits_spec (k n r : Nat) (hr : r * r ≤ n) (hn : n < (r + 2 ^ k) * (r + 2 ^ k)) :
    isqrtBits k n r * isqrtBits k n r ≤ n ∧ n < (isqrtBits k n r + 1) * (isqrtBits k n r + 1) := by
  induction k generalizing r with
  | zero => simpa [isqrtBits] using ⟨hr, hn⟩
  | succ k ih =>
    unfold isqrtBits
    have h2 : 2 ^ (k + 1) = 2 ^ k + 2 ^ k := by rw [Nat.pow_succ]; omega
    split
    · next h => exact ih _ h (by rwa [Nat.add_assoc, ← h2])
    · next h => exact ih _ hr (Nat.lt_of_not_le h)

/-- `isqrt(n)` is the largest `r` with `r * r ≤ n`. -/
theorem isqrt_spec (n : Nat) : isqrt n * isqrt n ≤ n ∧ n < (isqrt n + 1) * (isqrt n + 1) := by
  refine isqrtBits_spec _ n 0 (by simp) ?_
  have h : n < 2 ^ (n.log2 + 1) := Nat.lt_log2_self
  have hm : n.log2 + 1 ≤ (n.log2 / 2 + 1) + (n.log2 / 2 + 1) := by omega
  calc n < 2 ^ (n.log2 + 1) := h
    _ ≤ 2 ^ ((n.log2 / 2 + 1) + (n.log2 / 2 + 1)) := Nat.pow_le_pow_right (by decide) hm
    _ = (0 + 2 ^ (n.log2 / 2 + 1)) * (0 + 2 ^ (n.log2 / 2 + 1)) := by rw [Nat.pow_add]; simp

/-- `RoundSqrt(n)` lies between `isqrt(n)` and the next integer. -/
theorem roundSqrt_cases (n : Nat) :
    (roundSqrt n = isqrt n ∧ n ≤ isqrt n * isqrt n + isqrt n) ∨
      (roundSqrt n = isqrt n + 1 ∧ isqrt n * isqrt n + isqrt n < n) := by
  have h := (isqrt_spec n).1
  unfold roundSqrt
  split
  · next hlt => exact .inr ⟨rfl, by omega⟩
  · next hge => exact .inl ⟨rfl, by omega⟩

/-! ## Rounding and the decimal logarithm -/

/-- `RoundHalfUp(num / den)` is within one half of the quotient, a tie going up. -/
theorem roundHalfUp_spec (num den : Nat) (h : 0 < den) :
    2 * den * roundHalfUp num den ≤ 2 * num + den ∧ 2 * num + den < 2 * den * (roundHalfUp num den + 1) := by
  unfold roundHalfUp
  refine ⟨Nat.mul_div_le _ _, ?_⟩
  have := Nat.lt_mul_div_succ (2 * num + den) (b := 2 * den) (by omega)
  simpa using this

/-- With enough fuel, `ilog10Up` is the floor of the decimal logarithm. -/
theorem ilog10Up_spec (k n : Nat) (h1 : 1 ≤ n) (hk : n < 10 ^ (k + 1)) :
    10 ^ ilog10Up k n ≤ n ∧ n < 10 ^ (ilog10Up k n + 1) := by
  induction k generalizing n with
  | zero => simpa [ilog10Up] using ⟨h1, by simpa using hk⟩
  | succ k ih =>
    unfold ilog10Up
    split
    · next h => simp only [Nat.pow_zero, Nat.zero_add, Nat.pow_one]; exact ⟨h1, h⟩
    · next h =>
      have hk' : n / 10 < 10 ^ (k + 1) := Nat.div_lt_of_lt_mul (by rw [Nat.pow_succ] at hk; omega)
      obtain ⟨hl, hu⟩ := ih (n / 10) (by omega) hk'
      refine ⟨?_, ?_⟩
      · rw [Nat.pow_succ]; omega
      · rw [Nat.pow_succ]; omega

/-- With enough fuel, `ilog10Down` is the least exponent that lifts `num` to `den`. -/
theorem ilog10Down_spec (k num den : Nat) (h : num < den) (hk : den ≤ num * 10 ^ (k + 1)) :
    den ≤ num * 10 ^ ilog10Down k num den ∧ num * 10 ^ (ilog10Down k num den - 1) < den
      ∧ 1 ≤ ilog10Down k num den := by
  induction k generalizing num with
  | zero => simpa [ilog10Down] using ⟨by simpa using hk, h⟩
  | succ k ih =>
    unfold ilog10Down
    split
    · next hle => simpa using ⟨hle, h⟩
    · next hlt =>
      obtain ⟨hl, hu, h1⟩ := ih (num * 10) (by omega) (by rw [Nat.pow_succ] at hk; rw [Nat.mul_assoc]; rwa [Nat.mul_comm 10])
      refine ⟨?_, ?_, by omega⟩
      · rw [Nat.pow_succ, Nat.mul_comm _ 10, ← Nat.mul_assoc]; exact hl
      · obtain ⟨m, hm⟩ : ∃ m, ilog10Down k (num * 10) den = m + 1 := ⟨_, (Nat.sub_add_cancel h1).symm⟩
        rw [hm] at hu ⊢
        simp only [Nat.add_sub_cancel] at hu ⊢
        rwa [Nat.pow_succ, Nat.mul_comm _ 10, ← Nat.mul_assoc]

end Sys2Proof.Machine
end

