-- ==== Sys2Proof/Laws/Decode.lean ====
section
/-! SUPPORT. The format C64: a word is its four fields, and selecting a row of the opcode map is a condition on the
fields (30_encoding.md R91, R93, R96). -/

namespace Sys2Proof

/-! ## Fields of a packed word -/

@[simp] theorem fieldOp_packC64 (op a : BitVec 8) (b : BitVec 16) (c : BitVec 32) :
    fieldOp (packC64 op a b c) = op := by
  ext i hi; interval_cases i <;> simp [fieldOp, packC64]

@[simp] theorem fieldA_packC64 (op a : BitVec 8) (b : BitVec 16) (c : BitVec 32) :
    fieldA (packC64 op a b c) = a := by
  ext i hi; interval_cases i <;> simp [fieldA, packC64]

@[simp] theorem fieldB_packC64 (op a : BitVec 8) (b : BitVec 16) (c : BitVec 32) :
    fieldB (packC64 op a b c) = b := by
  ext i hi; interval_cases i <;> simp [fieldB, packC64]

@[simp] theorem fieldC_packC64 (op a : BitVec 8) (b : BitVec 16) (c : BitVec 32) :
    fieldC (packC64 op a b c) = c := by
  ext i hi; interval_cases i <;> simp [fieldC, packC64]

/-- The low half of `c`. -/
theorem fieldC16_eq (w : Word) : fieldC16 w = (fieldC w).setWidth 16 := by
  ext i hi; simp [fieldC16, fieldC]; omega

/-- The low byte of `c`. -/
theorem fieldC8_eq (w : Word) : fieldC8 w = (fieldC w).setWidth 8 := by
  ext i hi; simp [fieldC8, fieldC]; omega

/-- A word is its four fields. -/
theorem packC64_fields (w : Word) : packC64 (fieldOp w) (fieldA w) (fieldB w) (fieldC w) = w := by
  ext i hi; interval_cases i <;> simp [packC64, fieldOp, fieldA, fieldB, fieldC]

theorem packC64_inj {op a op' a' : BitVec 8} {b b' : BitVec 16} {c c' : BitVec 32} :
    packC64 op a b c = packC64 op' a' b' c' ↔ op = op' ∧ a = a' ∧ b = b' ∧ c = c' := by
  refine ⟨fun h => ⟨?_, ?_, ?_, ?_⟩, by rintro ⟨rfl, rfl, rfl, rfl⟩; rfl⟩
  · simpa using congrArg fieldOp h
  · simpa using congrArg fieldA h
  · simpa using congrArg fieldB h
  · simpa using congrArg fieldC h

/-- Masking works field by field. -/
theorem packC64_and (op a op' a' : BitVec 8) (b b' : BitVec 16) (c c' : BitVec 32) :
    packC64 op a b c &&& packC64 op' a' b' c' = packC64 (op &&& op') (a &&& a') (b &&& b') (c &&& c') := by
  have hop (x y : Word) : fieldOp (x &&& y) = fieldOp x &&& fieldOp y := BitVec.extractLsb'_and
  have ha (x y : Word) : fieldA (x &&& y) = fieldA x &&& fieldA y := BitVec.extractLsb'_and
  have hb (x y : Word) : fieldB (x &&& y) = fieldB x &&& fieldB y := BitVec.extractLsb'_and
  have hc (x y : Word) : fieldC (x &&& y) = fieldC x &&& fieldC y := BitVec.extractLsb'_and
  rw [← packC64_fields (packC64 op a b c &&& packC64 op' a' b' c'), hop, ha, hb, hc]
  simp only [fieldOp_packC64, fieldA_packC64, fieldB_packC64, fieldC_packC64]

/-! ## Selecting a row -/

/-- A word selects a row exactly when each of its masked fields is the pattern's. -/
theorem selects_iff (r : OpcodeRow) (w : Word) :
    r.selects w = true ↔ fieldOp w &&& fieldOp r.mask = fieldOp r.pattern
      ∧ fieldA w &&& fieldA r.mask = fieldA r.pattern ∧ fieldB w &&& fieldB r.mask = fieldB r.pattern
      ∧ fieldC w &&& fieldC r.mask = fieldC r.pattern := by
  rw [OpcodeRow.selects, beq_iff_eq, ← packC64_inj, ← packC64_and, packC64_fields, packC64_fields,
    packC64_fields]

theorem and_ones8 (x : BitVec 8) : x &&& 0xFF#8 = x := BitVec.and_allOnes
theorem and_ones16 (x : BitVec 16) : x &&& 0xFFFF#16 = x := BitVec.and_allOnes
theorem and_ones32 (x : BitVec 32) : x &&& 0xFFFFFFFF#32 = x := BitVec.and_allOnes

/-- The high half of `c` is zero exactly when `c` is its low half. -/
theorem high16_zero_iff (c : BitVec 32) : c &&& 0xFFFF0000#32 = 0#32 ↔ (c.setWidth 16).setWidth 32 = c := by
  constructor
  · intro h
    ext i hi
    have hb := congrArg (fun x : BitVec 32 => x.getLsbD i) h
    clear h
    interval_cases i <;> first | (simp; done) | simpa using hb
  · intro h
    rw [← h]
    ext i hi
    interval_cases i <;> simp

/-- All but the low byte of `c` is zero exactly when `c` is its low byte. -/
theorem high24_zero_iff (c : BitVec 32) : c &&& 0xFFFFFF00#32 = 0#32 ↔ (c.setWidth 8).setWidth 32 = c := by
  constructor
  · intro h
    ext i hi
    have hb := congrArg (fun x : BitVec 32 => x.getLsbD i) h
    clear h
    interval_cases i <;> first | (simp; done) | simpa using hb
  · intro h
    rw [← h]
    ext i hi
    interval_cases i <;> simp

/-- All but bit 0 of `a` is zero exactly when `a` is that bit. -/
theorem high7_zero_iff (a : BitVec 8) : a &&& 0xFE#8 = 0#8 ↔ (BitVec.ofBool (a.getLsbD 0)).setWidth 8 = a := by
  revert a
  decide

/-! ## The rows, one by one (R93, R96) -/

theorem row_fields_cfgfreq :
    (fieldOp rowCfgfreq.mask = 0xFF#8 ∧ fieldA rowCfgfreq.mask = 0xFF#8 ∧ fieldB rowCfgfreq.mask = 0xFFFF#16 ∧ fieldC rowCfgfreq.mask = 0xFFFF0000#32)
      ∧ fieldOp rowCfgfreq.pattern = 0x01#8 ∧ fieldA rowCfgfreq.pattern = 0#8 ∧ fieldB rowCfgfreq.pattern = 0#16 ∧ fieldC rowCfgfreq.pattern = 0#32 := by
  decide

@[simp] theorem selects_cfgfreq (w : Word) :
    rowCfgfreq.selects w = true ↔ fieldOp w = 0x01#8 ∧ fieldA w = 0#8 ∧ fieldB w = 0#16 ∧ fieldC w &&& 0xFFFF0000#32 = 0#32 := by
  simp [selects_iff, row_fields_cfgfreq, and_ones8, and_ones16]

theorem row_fields_bound :
    (fieldOp rowBound.mask = 0xFF#8 ∧ fieldA rowBound.mask = 0xFF#8 ∧ fieldB rowBound.mask = 0xFFFF#16 ∧ fieldC rowBound.mask = 0x00000000#32)
      ∧ fieldOp rowBound.pattern = 0x02#8 ∧ fieldA rowBound.pattern = 0#8 ∧ fieldB rowBound.pattern = 0#16 ∧ fieldC rowBound.pattern = 0#32 := by
  decide

@[simp] theorem selects_bound (w : Word) :
    rowBound.selects w = true ↔ fieldOp w = 0x02#8 ∧ fieldA w = 0#8 ∧ fieldB w = 0#16 := by
  simp [selects_iff, row_fields_bound, and_ones8, and_ones16]

theorem row_fields_setpwm :
    (fieldOp rowSetpwm.mask = 0xFF#8 ∧ fieldA rowSetpwm.mask = 0x00#8 ∧ fieldB rowSetpwm.mask = 0x0000#16 ∧ fieldC rowSetpwm.mask = 0xFFFF0000#32)
      ∧ fieldOp rowSetpwm.pattern = 0x03#8 ∧ fieldA rowSetpwm.pattern = 0#8 ∧ fieldB rowSetpwm.pattern = 0#16 ∧ fieldC rowSetpwm.pattern = 0#32 := by
  decide

@[simp] theorem selects_setpwm (w : Word) :
    rowSetpwm.selects w = true ↔ fieldOp w = 0x03#8 ∧ fieldC w &&& 0xFFFF0000#32 = 0#32 := by
  simp [selects_iff, row_fields_setpwm, and_ones8]

theorem row_fields_setduty :
    (fieldOp rowSetduty.mask = 0xFF#8 ∧ fieldA rowSetduty.mask = 0x00#8 ∧ fieldB rowSetduty.mask = 0xFFFF#16 ∧ fieldC rowSetduty.mask = 0xFFFF0000#32)
      ∧ fieldOp rowSetduty.pattern = 0x04#8 ∧ fieldA rowSetduty.pattern = 0#8 ∧ fieldB rowSetduty.pattern = 0#16 ∧ fieldC rowSetduty.pattern = 0#32 := by
  decide

@[simp] theorem selects_setduty (w : Word) :
    rowSetduty.selects w = true ↔ fieldOp w = 0x04#8 ∧ fieldB w = 0#16 ∧ fieldC w &&& 0xFFFF0000#32 = 0#32 := by
  simp [selects_iff, row_fields_setduty, and_ones8, and_ones16]

theorem row_fields_setservo :
    (fieldOp rowSetservo.mask = 0xFF#8 ∧ fieldA rowSetservo.mask = 0x00#8 ∧ fieldB rowSetservo.mask = 0xFFFF#16 ∧ fieldC rowSetservo.mask = 0xFFFF0000#32)
      ∧ fieldOp rowSetservo.pattern = 0x05#8 ∧ fieldA rowSetservo.pattern = 0#8 ∧ fieldB rowSetservo.pattern = 0#16 ∧ fieldC rowSetservo.pattern = 0#32 := by
  decide

@[simp] theorem selects_setservo (w : Word) :
    rowSetservo.selects w = true ↔ fieldOp w = 0x05#8 ∧ fieldB w = 0#16 ∧ fieldC w &&& 0xFFFF0000#32 = 0#32 := by
  simp [selects_iff, row_fields_setservo, and_ones8, and_ones16]

theorem row_fields_regwr :
    (fieldOp rowRegwr.mask = 0xFF#8 ∧ fieldA rowRegwr.mask = 0x00#8 ∧ fieldB rowRegwr.mask = 0xFFFF#16 ∧ fieldC rowRegwr.mask = 0xFFFFFF00#32)
      ∧ fieldOp rowRegwr.pattern = 0x08#8 ∧ fieldA rowRegwr.pattern = 0#8 ∧ fieldB rowRegwr.pattern = 0#16 ∧ fieldC rowRegwr.pattern = 0#32 := by
  decide

@[simp] theorem selects_regwr (w : Word) :
    rowRegwr.selects w = true ↔ fieldOp w = 0x08#8 ∧ fieldB w = 0#16 ∧ fieldC w &&& 0xFFFFFF00#32 = 0#32 := by
  simp [selects_iff, row_fields_regwr, and_ones8, and_ones16]

theorem row_fields_regrd :
    (fieldOp rowRegrd.mask = 0xFF#8 ∧ fieldA rowRegrd.mask = 0x00#8 ∧ fieldB rowRegrd.mask = 0xFFFF#16 ∧ fieldC rowRegrd.mask = 0xFFFFFFFF#32)
      ∧ fieldOp rowRegrd.pattern = 0x09#8 ∧ fieldA rowRegrd.pattern = 0#8 ∧ fieldB rowRegrd.pattern = 0#16 ∧ fieldC rowRegrd.pattern = 0#32 := by
  decide

@[simp] theorem selects_regrd (w : Word) :
    rowRegrd.selects w = true ↔ fieldOp w = 0x09#8 ∧ fieldB w = 0#16 ∧ fieldC w = 0#32 := by
  simp [selects_iff, row_fields_regrd, and_ones8, and_ones16, and_ones32]

theorem row_fields_uscfg :
    (fieldOp rowUscfg.mask = 0xFF#8 ∧ fieldA rowUscfg.mask = 0xFE#8 ∧ fieldB rowUscfg.mask = 0x0000#16 ∧ fieldC rowUscfg.mask = 0xFFFF0000#32)
      ∧ fieldOp rowUscfg.pattern = 0x10#8 ∧ fieldA rowUscfg.pattern = 0#8 ∧ fieldB rowUscfg.pattern = 0#16 ∧ fieldC rowUscfg.pattern = 0#32 := by
  decide

@[simp] theorem selects_uscfg (w : Word) :
    rowUscfg.selects w = true ↔ fieldOp w = 0x10#8 ∧ fieldA w &&& 0xFE#8 = 0#8 ∧ fieldC w &&& 0xFFFF0000#32 = 0#32 := by
  simp [selects_iff, row_fields_uscfg, and_ones8]

theorem row_fields_measure :
    (fieldOp rowMeasure.mask = 0xFF#8 ∧ fieldA rowMeasure.mask = 0x00#8 ∧ fieldB rowMeasure.mask = 0xFFFF#16 ∧ fieldC rowMeasure.mask = 0xFFFFFFFF#32)
      ∧ fieldOp rowMeasure.pattern = 0x11#8 ∧ fieldA rowMeasure.pattern = 0#8 ∧ fieldB rowMeasure.pattern = 0#16 ∧ fieldC rowMeasure.pattern = 0#32 := by
  decide

@[simp] theorem selects_measure (w : Word) :
    rowMeasure.selects w = true ↔ fieldOp w = 0x11#8 ∧ fieldB w = 0#16 ∧ fieldC w = 0#32 := by
  simp [selects_iff, row_fields_measure, and_ones8, and_ones16, and_ones32]

theorem row_fields_usrel :
    (fieldOp rowUsrel.mask = 0xFF#8 ∧ fieldA rowUsrel.mask = 0xFF#8 ∧ fieldB rowUsrel.mask = 0xFFFF#16 ∧ fieldC rowUsrel.mask = 0xFFFFFFFF#32)
      ∧ fieldOp rowUsrel.pattern = 0x12#8 ∧ fieldA rowUsrel.pattern = 0#8 ∧ fieldB rowUsrel.pattern = 0#16 ∧ fieldC rowUsrel.pattern = 0#32 := by
  decide

@[simp] theorem selects_usrel (w : Word) :
    rowUsrel.selects w = true ↔ fieldOp w = 0x12#8 ∧ fieldA w = 0#8 ∧ fieldB w = 0#16 ∧ fieldC w = 0#32 := by
  simp [selects_iff, row_fields_usrel, and_ones8, and_ones16, and_ones32]

theorem row_fields_sos :
    (fieldOp rowSos.mask = 0xFF#8 ∧ fieldA rowSos.mask = 0xFF#8 ∧ fieldB rowSos.mask = 0xFFFF#16 ∧ fieldC rowSos.mask = 0xFFFF0000#32)
      ∧ fieldOp rowSos.pattern = 0x18#8 ∧ fieldA rowSos.pattern = 0#8 ∧ fieldB rowSos.pattern = 0#16 ∧ fieldC rowSos.pattern = 0#32 := by
  decide

@[simp] theorem selects_sos (w : Word) :
    rowSos.selects w = true ↔ fieldOp w = 0x18#8 ∧ fieldA w = 0#8 ∧ fieldB w = 0#16 ∧ fieldC w &&& 0xFFFF0000#32 = 0#32 := by
  simp [selects_iff, row_fields_sos, and_ones8, and_ones16]

/-- The opcodes of the eleven rows. -/
@[simp] theorem row_ops :
    rowCfgfreq.op = 0x01#8 ∧ rowBound.op = 0x02#8 ∧ rowSetpwm.op = 0x03#8 ∧ rowSetduty.op = 0x04#8
      ∧ rowSetservo.op = 0x05#8 ∧ rowRegwr.op = 0x08#8 ∧ rowRegrd.op = 0x09#8 ∧ rowUscfg.op = 0x10#8
      ∧ rowMeasure.op = 0x11#8 ∧ rowUsrel.op = 0x12#8 ∧ rowSos.op = 0x18#8 := by
  decide

end Sys2Proof
end

