-- ==== Sys2Proof/Laws/Memory.lean ====
section
/-! SUPPORT. The laws of the register-space memory: read after write, and the canonical form kept by every operation. -/

namespace Sys2Proof.Machine

open Sys2Proof

/-! ## The canonical form, taken apart -/

theorem Memory.wf_cons {a : Nat} {b : Byte} {m : Memory} :
    Memory.wf ((a, b) :: m) = true ↔
      a < 256 ∧ b ≠ Memory.blank ∧ (∀ c ∈ m, a < c.1) ∧ Memory.wf m = true := by
  simp [Memory.wf]

/-- Below the first entry of a canonical memory every address is blank. -/
theorem Memory.read_of_lt {m : Memory} {addr : Nat} (h : ∀ c ∈ m, addr < c.1) :
    Memory.read m addr = Memory.blank := by
  induction m with
  | nil => rfl
  | cons c m ih =>
    have hc : c.1 ≠ addr := Nat.ne_of_gt (h c (by simp))
    simp [Memory.read, hc, ih fun d hd => h d (by simp [hd])]

/-! ## Reading after an insertion or an erasure -/

theorem Memory.read_insert_same (m : Memory) (addr : Nat) (v : Byte) :
    Memory.read (Memory.insert m addr v) addr = v := by
  induction m with
  | nil => simp [Memory.insert, Memory.read]
  | cons c m ih =>
    unfold Memory.insert
    split
    · simp [Memory.read]
    · split
      · simp [Memory.read]
      · next h => simp [Memory.read, Ne.symm h, ih]

theorem Memory.read_insert_other {m : Memory} {addr a : Nat} {v : Byte} (h : a ≠ addr) :
    Memory.read (Memory.insert m addr v) a = Memory.read m a := by
  induction m with
  | nil => simp [Memory.insert, Memory.read, Ne.symm h]
  | cons c m ih =>
    unfold Memory.insert
    split
    · simp [Memory.read, Ne.symm h]
    · split
      · next hc => simp [Memory.read, ← hc, Ne.symm h]
      · simp [Memory.read, ih]

theorem Memory.read_erase_same {m : Memory} {addr : Nat} (h : Memory.wf m = true) :
    Memory.read (Memory.erase m addr) addr = Memory.blank := by
  induction m with
  | nil => rfl
  | cons c m ih =>
    obtain ⟨-, -, hlt, hm⟩ := Memory.wf_cons.1 h
    unfold Memory.erase
    split
    · next hc => exact Memory.read_of_lt (hc ▸ hlt)
    · next hc => simp [Memory.read, hc, ih hm]

theorem Memory.read_erase_other {m : Memory} {addr a : Nat} (h : a ≠ addr) :
    Memory.read (Memory.erase m addr) a = Memory.read m a := by
  induction m with
  | nil => rfl
  | cons c m ih =>
    unfold Memory.erase
    split
    · next hc => simp [Memory.read, hc, Ne.symm h]
    · simp [Memory.read, ih]

/-! ## The two basic laws of a write -/

/-- A read after a write to the same address gives the byte written. -/
theorem Memory.read_write_same {m : Memory} {addr : Nat} {v : Byte} (h : Memory.wf m = true) :
    Memory.read (Memory.write m addr v) addr = v := by
  unfold Memory.write
  split
  · next hv => rw [Memory.read_erase_same h, hv]
  · exact Memory.read_insert_same m addr v

/-- A write leaves every other address alone. -/
theorem Memory.read_write_other {m : Memory} {addr a : Nat} {v : Byte} (h : a ≠ addr) :
    Memory.read (Memory.write m addr v) a = Memory.read m a := by
  unfold Memory.write
  split
  · exact Memory.read_erase_other h
  · exact Memory.read_insert_other h

/-! ## The canonical form is kept -/

theorem Memory.mem_insert {m : Memory} {addr : Nat} {v : Byte} {c : Host.Cell}
    (h : c ∈ Memory.insert m addr v) : c = (addr, v) ∨ c ∈ m := by
  induction m with
  | nil => exact .inl (by simpa [Memory.insert] using h)
  | cons d m ih =>
    unfold Memory.insert at h
    split at h
    · simpa using h
    · split at h
      · rcases List.mem_cons.1 h with h | h
        · exact .inl h
        · exact .inr (by simp [h])
      · rcases List.mem_cons.1 h with h | h
        · exact .inr (by simp [h])
        · exact (ih h).imp_right fun h => by simp [h]

theorem Memory.mem_erase {m : Memory} {addr : Nat} {c : Host.Cell} (h : c ∈ Memory.erase m addr) : c ∈ m := by
  induction m with
  | nil => exact h
  | cons d m ih =>
    unfold Memory.erase at h
    split at h
    · simp [h]
    · rcases List.mem_cons.1 h with h | h
      · simp [h]
      · simp [ih h]

/-- A write lists no address but the ones listed before and the one written. -/
theorem Memory.mem_write {m : Memory} {addr : Nat} {v : Byte} {c : Host.Cell}
    (h : c ∈ Memory.write m addr v) : c.1 = addr ∨ c ∈ m := by
  unfold Memory.write at h
  split at h
  · exact .inr (Memory.mem_erase h)
  · exact (Memory.mem_insert h).imp_left fun h => by simp [h]

theorem Memory.wf_insert {m : Memory} {addr : Nat} {v : Byte} (h : Memory.wf m = true) (ha : addr < 256)
    (hv : v ≠ Memory.blank) : Memory.wf (Memory.insert m addr v) = true := by
  induction m with
  | nil => simp [Memory.insert, Memory.wf, ha, hv]
  | cons c m ih =>
    obtain ⟨hc, hb, hlt, hm⟩ := Memory.wf_cons.1 h
    unfold Memory.insert
    split
    · next hac =>
      refine Memory.wf_cons.2 ⟨ha, hv, fun d hd => ?_, h⟩
      rcases List.mem_cons.1 hd with rfl | hd
      · exact hac
      · exact Nat.lt_trans hac (hlt d hd)
    · split
      · next hac => exact Memory.wf_cons.2 ⟨ha, hv, hac ▸ hlt, hm⟩
      · next hnlt hne =>
        refine Memory.wf_cons.2 ⟨hc, hb, fun d hd => ?_, ih hm⟩
        rcases Memory.mem_insert hd with rfl | hd
        · show c.1 < addr
          have : ¬ addr < c.1 := hnlt
          have : addr ≠ c.1 := hne
          omega
        · exact hlt d hd

theorem Memory.wf_erase {m : Memory} {addr : Nat} (h : Memory.wf m = true) :
    Memory.wf (Memory.erase m addr) = true := by
  induction m with
  | nil => rfl
  | cons c m ih =>
    obtain ⟨hc, hb, hlt, hm⟩ := Memory.wf_cons.1 h
    unfold Memory.erase
    split
    · exact hm
    · exact Memory.wf_cons.2 ⟨hc, hb, fun d hd => hlt d (Memory.mem_erase hd), ih hm⟩

/-- Every write keeps the canonical form. -/
theorem Memory.wf_write {m : Memory} {addr : Nat} {v : Byte} (h : Memory.wf m = true) (ha : addr < 256) :
    Memory.wf (Memory.write m addr v) = true := by
  unfold Memory.write
  split
  · exact Memory.wf_erase h
  · next hv => exact Memory.wf_insert h ha hv

/-- Reset lists nothing. -/
theorem Memory.wf_reset (p : Config.Params) (e : Env) (x : Byte) :
    (State.resetWith p e x).ctl.chreg.wf = true := rfl

end Sys2Proof.Machine
end

