-- ==== Sys2Proof/Laws/State.lean ====
section
/-! SUPPORT. What each update of the state does to each part of it: one lemma per field per update, true by rfl, so that
no later proof unfolds a record update. -/

namespace Sys2Proof.Machine

open Sys2Proof

variable (s : State)

/-! ## `respond` -/

@[simp] theorem State.respond_params (st : Status) (k : Kind) (exp : BitVec 8) (val : BitVec 32) : (s.respond st k exp val).params = s.params := rfl
@[simp] theorem State.respond_env (st : Status) (k : Kind) (exp : BitVec 8) (val : BitVec 32) : (s.respond st k exp val).env = s.env := rfl
@[simp] theorem State.respond_time (st : Status) (k : Kind) (exp : BitVec 8) (val : BitVec 32) : (s.respond st k exp val).time = s.time := rfl
@[simp] theorem State.respond_phase (st : Status) (k : Kind) (exp : BitVec 8) (val : BitVec 32) : (s.respond st k exp val).phase = .idle := rfl
@[simp] theorem State.respond_cmd (st : Status) (k : Kind) (exp : BitVec 8) (val : BitVec 32) : (s.respond st k exp val).cmd = s.cmd := rfl
@[simp] theorem State.respond_waitCnt (st : Status) (k : Kind) (exp : BitVec 8) (val : BitVec 32) : (s.respond st k exp val).waitCnt = s.waitCnt := rfl
@[simp] theorem State.respond_accno (st : Status) (k : Kind) (exp : BitVec 8) (val : BitVec 32) : (s.respond st k exp val).accno = s.accno := rfl
@[simp] theorem State.respond_resp (st : Status) (k : Kind) (exp : BitVec 8) (val : BitVec 32) : (s.respond st k exp val).resp = ⟨true, statusCode st, kindCode k, exp, val⟩ := rfl
@[simp] theorem State.respond_drv (st : Status) (k : Kind) (exp : BitVec 8) (val : BitVec 32) : (s.respond st k exp val).drv = s.drv := rfl
@[simp] theorem State.respond_ctl (st : Status) (k : Kind) (exp : BitVec 8) (val : BitVec 32) : (s.respond st k exp val).ctl = s.ctl := rfl
@[simp] theorem State.respond_seq (st : Status) (k : Kind) (exp : BitVec 8) (val : BitVec 32) : (s.respond st k exp val).seq = s.seq := rfl

/-! ## `respondDone` -/

@[simp] theorem State.respondDone_params : (s.respondDone).params = s.params := rfl
@[simp] theorem State.respondDone_env : (s.respondDone).env = s.env := rfl
@[simp] theorem State.respondDone_time : (s.respondDone).time = s.time := rfl
@[simp] theorem State.respondDone_phase : (s.respondDone).phase = .idle := rfl
@[simp] theorem State.respondDone_cmd : (s.respondDone).cmd = s.cmd := rfl
@[simp] theorem State.respondDone_waitCnt : (s.respondDone).waitCnt = s.waitCnt := rfl
@[simp] theorem State.respondDone_accno : (s.respondDone).accno = s.accno := rfl
@[simp] theorem State.respondDone_resp : (s.respondDone).resp = ⟨true, 0, 0, 0, 0⟩ := rfl
@[simp] theorem State.respondDone_drv : (s.respondDone).drv = s.drv := rfl
@[simp] theorem State.respondDone_ctl : (s.respondDone).ctl = s.ctl := rfl
@[simp] theorem State.respondDone_seq : (s.respondDone).seq = s.seq := rfl

/-! ## `respondInt` -/

@[simp] theorem State.respondInt_params (val : BitVec 32) : (s.respondInt val).params = s.params := rfl
@[simp] theorem State.respondInt_env (val : BitVec 32) : (s.respondInt val).env = s.env := rfl
@[simp] theorem State.respondInt_time (val : BitVec 32) : (s.respondInt val).time = s.time := rfl
@[simp] theorem State.respondInt_phase (val : BitVec 32) : (s.respondInt val).phase = .idle := rfl
@[simp] theorem State.respondInt_cmd (val : BitVec 32) : (s.respondInt val).cmd = s.cmd := rfl
@[simp] theorem State.respondInt_waitCnt (val : BitVec 32) : (s.respondInt val).waitCnt = s.waitCnt := rfl
@[simp] theorem State.respondInt_accno (val : BitVec 32) : (s.respondInt val).accno = s.accno := rfl
@[simp] theorem State.respondInt_resp (val : BitVec 32) : (s.respondInt val).resp = ⟨true, 0, 1, 0, val⟩ := rfl
@[simp] theorem State.respondInt_drv (val : BitVec 32) : (s.respondInt val).drv = s.drv := rfl
@[simp] theorem State.respondInt_ctl (val : BitVec 32) : (s.respondInt val).ctl = s.ctl := rfl
@[simp] theorem State.respondInt_seq (val : BitVec 32) : (s.respondInt val).seq = s.seq := rfl

/-! ## `raise` -/

@[simp] theorem State.raise_params (st : Status) (info : BitVec 32) : (s.raise st info).params = s.params := rfl
@[simp] theorem State.raise_env (st : Status) (info : BitVec 32) : (s.raise st info).env = s.env := rfl
@[simp] theorem State.raise_time (st : Status) (info : BitVec 32) : (s.raise st info).time = s.time := rfl
@[simp] theorem State.raise_phase (st : Status) (info : BitVec 32) : (s.raise st info).phase = .idle := rfl
@[simp] theorem State.raise_cmd (st : Status) (info : BitVec 32) : (s.raise st info).cmd = s.cmd := rfl
@[simp] theorem State.raise_waitCnt (st : Status) (info : BitVec 32) : (s.raise st info).waitCnt = s.waitCnt := rfl
@[simp] theorem State.raise_accno (st : Status) (info : BitVec 32) : (s.raise st info).accno = s.accno := rfl
@[simp] theorem State.raise_resp (st : Status) (info : BitVec 32) : (s.raise st info).resp = ⟨true, statusCode st, 0, 0, info⟩ := rfl
@[simp] theorem State.raise_drv (st : Status) (info : BitVec 32) : (s.raise st info).drv = s.drv := rfl
@[simp] theorem State.raise_ctl (st : Status) (info : BitVec 32) : (s.raise st info).ctl = s.ctl := rfl
@[simp] theorem State.raise_seq (st : Status) (info : BitVec 32) : (s.raise st info).seq = s.seq := rfl

/-! ## `latch` -/

@[simp] theorem State.latch_params (w : Word) : (s.latch w).params = s.params := rfl
@[simp] theorem State.latch_env (w : Word) : (s.latch w).env = s.env := rfl
@[simp] theorem State.latch_time (w : Word) : (s.latch w).time = s.time := rfl
@[simp] theorem State.latch_phase (w : Word) : (s.latch w).phase = s.phase := rfl
@[simp] theorem State.latch_cmd (w : Word) : (s.latch w).cmd = w := rfl
@[simp] theorem State.latch_waitCnt (w : Word) : (s.latch w).waitCnt = s.waitCnt := rfl
@[simp] theorem State.latch_accno (w : Word) : (s.latch w).accno = s.accno := rfl
@[simp] theorem State.latch_resp (w : Word) : (s.latch w).resp = ⟨false, s.resp.rstat, s.resp.rkind, s.resp.rexp, s.resp.rval⟩ := rfl
@[simp] theorem State.latch_drv (w : Word) : (s.latch w).drv = s.drv := rfl
@[simp] theorem State.latch_ctl (w : Word) : (s.latch w).ctl = s.ctl := rfl
@[simp] theorem State.latch_seq (w : Word) : (s.latch w).seq = s.seq := rfl

/-! ## `enter` -/

@[simp] theorem State.enter_params (ph : Phase) (n : BitVec 64) : (s.enter ph n).params = s.params := rfl
@[simp] theorem State.enter_env (ph : Phase) (n : BitVec 64) : (s.enter ph n).env = s.env := rfl
@[simp] theorem State.enter_time (ph : Phase) (n : BitVec 64) : (s.enter ph n).time = s.time := rfl
@[simp] theorem State.enter_phase (ph : Phase) (n : BitVec 64) : (s.enter ph n).phase = ph := rfl
@[simp] theorem State.enter_cmd (ph : Phase) (n : BitVec 64) : (s.enter ph n).cmd = s.cmd := rfl
@[simp] theorem State.enter_waitCnt (ph : Phase) (n : BitVec 64) : (s.enter ph n).waitCnt = n := rfl
@[simp] theorem State.enter_accno (ph : Phase) (n : BitVec 64) : (s.enter ph n).accno = s.accno := rfl
@[simp] theorem State.enter_resp (ph : Phase) (n : BitVec 64) : (s.enter ph n).resp = s.resp := rfl
@[simp] theorem State.enter_drv (ph : Phase) (n : BitVec 64) : (s.enter ph n).drv = s.drv := rfl
@[simp] theorem State.enter_ctl (ph : Phase) (n : BitVec 64) : (s.enter ph n).ctl = s.ctl := rfl
@[simp] theorem State.enter_seq (ph : Phase) (n : BitVec 64) : (s.enter ph n).seq = s.seq := rfl

/-! ## `enterBus` -/

@[simp] theorem State.enterBus_params (ph : Phase) : (s.enterBus ph).params = s.params := rfl
@[simp] theorem State.enterBus_env (ph : Phase) : (s.enterBus ph).env = s.env := rfl
@[simp] theorem State.enterBus_time (ph : Phase) : (s.enterBus ph).time = s.time := rfl
@[simp] theorem State.enterBus_phase (ph : Phase) : (s.enterBus ph).phase = ph := rfl
@[simp] theorem State.enterBus_cmd (ph : Phase) : (s.enterBus ph).cmd = s.cmd := rfl
@[simp] theorem State.enterBus_waitCnt (ph : Phase) : (s.enterBus ph).waitCnt = s.busLat := rfl
@[simp] theorem State.enterBus_accno (ph : Phase) : (s.enterBus ph).accno = s.accno := rfl
@[simp] theorem State.enterBus_resp (ph : Phase) : (s.enterBus ph).resp = s.resp := rfl
@[simp] theorem State.enterBus_drv (ph : Phase) : (s.enterBus ph).drv = s.drv := rfl
@[simp] theorem State.enterBus_ctl (ph : Phase) : (s.enterBus ph).ctl = s.ctl := rfl
@[simp] theorem State.enterBus_seq (ph : Phase) : (s.enterBus ph).seq = s.seq := rfl

/-! ## `goto` -/

@[simp] theorem State.goto_params (ph : Phase) : (s.goto ph).params = s.params := rfl
@[simp] theorem State.goto_env (ph : Phase) : (s.goto ph).env = s.env := rfl
@[simp] theorem State.goto_time (ph : Phase) : (s.goto ph).time = s.time := rfl
@[simp] theorem State.goto_phase (ph : Phase) : (s.goto ph).phase = ph := rfl
@[simp] theorem State.goto_cmd (ph : Phase) : (s.goto ph).cmd = s.cmd := rfl
@[simp] theorem State.goto_waitCnt (ph : Phase) : (s.goto ph).waitCnt = s.waitCnt := rfl
@[simp] theorem State.goto_accno (ph : Phase) : (s.goto ph).accno = s.accno := rfl
@[simp] theorem State.goto_resp (ph : Phase) : (s.goto ph).resp = s.resp := rfl
@[simp] theorem State.goto_drv (ph : Phase) : (s.goto ph).drv = s.drv := rfl
@[simp] theorem State.goto_ctl (ph : Phase) : (s.goto ph).ctl = s.ctl := rfl
@[simp] theorem State.goto_seq (ph : Phase) : (s.goto ph).seq = s.seq := rfl

/-! ## `countAccess` -/

@[simp] theorem State.countAccess_params : (s.countAccess).params = s.params := rfl
@[simp] theorem State.countAccess_env : (s.countAccess).env = s.env := rfl
@[simp] theorem State.countAccess_time : (s.countAccess).time = s.time := rfl
@[simp] theorem State.countAccess_phase : (s.countAccess).phase = s.phase := rfl
@[simp] theorem State.countAccess_cmd : (s.countAccess).cmd = s.cmd := rfl
@[simp] theorem State.countAccess_waitCnt : (s.countAccess).waitCnt = s.waitCnt := rfl
@[simp] theorem State.countAccess_accno : (s.countAccess).accno = s.accno + 1 := rfl
@[simp] theorem State.countAccess_resp : (s.countAccess).resp = s.resp := rfl
@[simp] theorem State.countAccess_drv : (s.countAccess).drv = s.drv := rfl
@[simp] theorem State.countAccess_ctl : (s.countAccess).ctl = s.ctl := rfl
@[simp] theorem State.countAccess_seq : (s.countAccess).seq = s.seq := rfl

/-! ## `transportError` -/

@[simp] theorem State.transportError_params : (s.transportError).params = s.params := rfl
@[simp] theorem State.transportError_env : (s.transportError).env = s.env := rfl
@[simp] theorem State.transportError_time : (s.transportError).time = s.time := rfl
@[simp] theorem State.transportError_phase : (s.transportError).phase = .idle := rfl
@[simp] theorem State.transportError_cmd : (s.transportError).cmd = s.cmd := rfl
@[simp] theorem State.transportError_waitCnt : (s.transportError).waitCnt = s.waitCnt := rfl
@[simp] theorem State.transportError_accno : (s.transportError).accno = s.accno := rfl
@[simp] theorem State.transportError_resp : (s.transportError).resp = ⟨true, 3, 0, 0, accessesBefore s.phase⟩ := rfl
@[simp] theorem State.transportError_drv : (s.transportError).drv = s.drv := rfl
@[simp] theorem State.transportError_ctl : (s.transportError).ctl = s.ctl := rfl
@[simp] theorem State.transportError_seq : (s.transportError).seq = s.seq := rfl

/-! ## `dividerTick` -/

@[simp] theorem State.dividerTick_params : (s.dividerTick).params = s.params := rfl
@[simp] theorem State.dividerTick_env : (s.dividerTick).env = s.env := rfl
@[simp] theorem State.dividerTick_time : (s.dividerTick).time = s.time := rfl
@[simp] theorem State.dividerTick_phase : (s.dividerTick).phase = s.phase := rfl
@[simp] theorem State.dividerTick_cmd : (s.dividerTick).cmd = s.cmd := rfl
@[simp] theorem State.dividerTick_waitCnt : (s.dividerTick).waitCnt = s.waitCnt := rfl
@[simp] theorem State.dividerTick_accno : (s.dividerTick).accno = s.accno := rfl
@[simp] theorem State.dividerTick_resp : (s.dividerTick).resp = s.resp := rfl
@[simp] theorem State.dividerTick_drv : (s.dividerTick).drv = s.drv := rfl
@[simp] theorem State.dividerTick_ctl : (s.dividerTick).ctl = s.ctl.tick s.params := rfl
@[simp] theorem State.dividerTick_seq : (s.dividerTick).seq = s.seq := rfl

/-! ## `clockEdge` -/

@[simp] theorem State.clockEdge_params : (s.clockEdge).params = s.params := rfl
@[simp] theorem State.clockEdge_env : (s.clockEdge).env = s.env.advance := rfl
@[simp] theorem State.clockEdge_time : (s.clockEdge).time = s.time + 1 := rfl
@[simp] theorem State.clockEdge_phase : (s.clockEdge).phase = s.phase := rfl
@[simp] theorem State.clockEdge_cmd : (s.clockEdge).cmd = s.cmd := rfl
@[simp] theorem State.clockEdge_waitCnt : (s.clockEdge).waitCnt = s.waitCnt := rfl
@[simp] theorem State.clockEdge_accno : (s.clockEdge).accno = s.accno := rfl
@[simp] theorem State.clockEdge_resp : (s.clockEdge).resp = s.resp := rfl
@[simp] theorem State.clockEdge_drv : (s.clockEdge).drv = s.drv := rfl
@[simp] theorem State.clockEdge_ctl : (s.clockEdge).ctl = s.ctl.drawIfCorrupt s.env.drawNo := rfl
@[simp] theorem State.clockEdge_seq : (s.clockEdge).seq = s.seq := rfl

/-! ## `finishMeasure` -/

@[simp] theorem State.finishMeasure_params (o : MeasureOutcome) : (s.finishMeasure o).params = s.params := rfl
@[simp] theorem State.finishMeasure_env (o : MeasureOutcome) : (s.finishMeasure o).env = s.env := rfl
@[simp] theorem State.finishMeasure_time (o : MeasureOutcome) : (s.finishMeasure o).time = s.time := rfl
@[simp] theorem State.finishMeasure_phase (o : MeasureOutcome) : (s.finishMeasure o).phase = .usRearm := rfl
@[simp] theorem State.finishMeasure_cmd (o : MeasureOutcome) : (s.finishMeasure o).cmd = s.cmd := rfl
@[simp] theorem State.finishMeasure_waitCnt (o : MeasureOutcome) : (s.finishMeasure o).waitCnt = 1 := rfl
@[simp] theorem State.finishMeasure_accno (o : MeasureOutcome) : (s.finishMeasure o).accno = s.accno := rfl
@[simp] theorem State.finishMeasure_resp (o : MeasureOutcome) : (s.finishMeasure o).resp = s.resp := rfl
@[simp] theorem State.finishMeasure_drv (o : MeasureOutcome) : (s.finishMeasure o).drv = s.drv := rfl
@[simp] theorem State.finishMeasure_ctl (o : MeasureOutcome) : (s.finishMeasure o).ctl = s.ctl := rfl

/-! ## `beginMeasure` -/

@[simp] theorem State.beginMeasure_params (n : BitVec 8) : (s.beginMeasure n).params = s.params := rfl
@[simp] theorem State.beginMeasure_env (n : BitVec 8) : (s.beginMeasure n).env = s.env := rfl
@[simp] theorem State.beginMeasure_time (n : BitVec 8) : (s.beginMeasure n).time = s.time := rfl
@[simp] theorem State.beginMeasure_phase (n : BitVec 8) : (s.beginMeasure n).phase = s.phase := rfl
@[simp] theorem State.beginMeasure_cmd (n : BitVec 8) : (s.beginMeasure n).cmd = s.cmd := rfl
@[simp] theorem State.beginMeasure_waitCnt (n : BitVec 8) : (s.beginMeasure n).waitCnt = s.waitCnt := rfl
@[simp] theorem State.beginMeasure_accno (n : BitVec 8) : (s.beginMeasure n).accno = s.accno := rfl
@[simp] theorem State.beginMeasure_resp (n : BitVec 8) : (s.beginMeasure n).resp = s.resp := rfl
@[simp] theorem State.beginMeasure_drv (n : BitVec 8) : (s.beginMeasure n).drv = s.drv := rfl
@[simp] theorem State.beginMeasure_ctl (n : BitVec 8) : (s.beginMeasure n).ctl = s.ctl := rfl

/-! ## `startPulse` -/

@[simp] theorem State.startPulse_params : (s.startPulse).params = s.params := rfl
@[simp] theorem State.startPulse_env : (s.startPulse).env = s.env := rfl
@[simp] theorem State.startPulse_time : (s.startPulse).time = s.time := rfl
@[simp] theorem State.startPulse_phase : (s.startPulse).phase = .usTrig := rfl
@[simp] theorem State.startPulse_cmd : (s.startPulse).cmd = s.cmd := rfl
@[simp] theorem State.startPulse_waitCnt : (s.startPulse).waitCnt = s.params.trigTicks := rfl
@[simp] theorem State.startPulse_accno : (s.startPulse).accno = s.accno := rfl
@[simp] theorem State.startPulse_resp : (s.startPulse).resp = s.resp := rfl
@[simp] theorem State.startPulse_drv : (s.startPulse).drv = s.drv := rfl
@[simp] theorem State.startPulse_ctl : (s.startPulse).ctl = s.ctl := rfl

/-! ## `respondDistance` -/

@[simp] theorem State.respondDistance_params (d : Nat × Int) : (s.respondDistance d).params = s.params := rfl
@[simp] theorem State.respondDistance_env (d : Nat × Int) : (s.respondDistance d).env = s.env := rfl
@[simp] theorem State.respondDistance_time (d : Nat × Int) : (s.respondDistance d).time = s.time := rfl
@[simp] theorem State.respondDistance_phase (d : Nat × Int) : (s.respondDistance d).phase = .idle := rfl
@[simp] theorem State.respondDistance_cmd (d : Nat × Int) : (s.respondDistance d).cmd = s.cmd := rfl
@[simp] theorem State.respondDistance_waitCnt (d : Nat × Int) : (s.respondDistance d).waitCnt = s.waitCnt := rfl
@[simp] theorem State.respondDistance_accno (d : Nat × Int) : (s.respondDistance d).accno = s.accno := rfl
@[simp] theorem State.respondDistance_resp (d : Nat × Int) : (s.respondDistance d).resp = ⟨true, 0, 2, fitRexp d.2, BitVec.ofNat 32 d.1⟩ := rfl
@[simp] theorem State.respondDistance_drv (d : Nat × Int) : (s.respondDistance d).drv = s.drv := rfl
@[simp] theorem State.respondDistance_ctl (d : Nat × Int) : (s.respondDistance d).ctl = s.ctl := rfl
@[simp] theorem State.respondDistance_seq (d : Nat × Int) : (s.respondDistance d).seq = s.seq := rfl

/-! ## The pin operations -/

variable (p : Config.Params) (q : Seq)

@[simp] theorem Seq.setTrigMode_usReady (m : PinMode) : (q.setTrigMode p m).usReady = q.usReady := rfl
@[simp] theorem Seq.setTrigMode_usMin (m : PinMode) : (q.setTrigMode p m).usMin = q.usMin := rfl
@[simp] theorem Seq.setTrigMode_usMax (m : PinMode) : (q.setTrigMode p m).usMax = q.usMax := rfl
@[simp] theorem Seq.setTrigMode_usStrict (m : PinMode) : (q.setTrigMode p m).usStrict = q.usStrict := rfl
@[simp] theorem Seq.setTrigMode_trigMode (m : PinMode) : (q.setTrigMode p m).trigMode = m := rfl
@[simp] theorem Seq.setTrigMode_echoMode (m : PinMode) : (q.setTrigMode p m).echoMode = if p.sharedPin then mirrorMode m else q.echoMode := rfl
@[simp] theorem Seq.setTrigMode_trig (m : PinMode) : (q.setTrigMode p m).trig = q.trig := rfl
@[simp] theorem Seq.setTrigMode_temp (m : PinMode) : (q.setTrigMode p m).temp = q.temp := rfl
@[simp] theorem Seq.setTrigMode_v (m : PinMode) : (q.setTrigMode p m).v = q.v := rfl
@[simp] theorem Seq.setTrigMode_timeout (m : PinMode) : (q.setTrigMode p m).timeout = q.timeout := rfl
@[simp] theorem Seq.setTrigMode_now (m : PinMode) : (q.setTrigMode p m).now = q.now := rfl
@[simp] theorem Seq.setTrigMode_deadline (m : PinMode) : (q.setTrigMode p m).deadline = q.deadline := rfl
@[simp] theorem Seq.setTrigMode_pstart (m : PinMode) : (q.setTrigMode p m).pstart = q.pstart := rfl
@[simp] theorem Seq.setTrigMode_pend (m : PinMode) : (q.setTrigMode p m).pend = q.pend := rfl
@[simp] theorem Seq.setTrigMode_nsig (m : PinMode) : (q.setTrigMode p m).nsig = q.nsig := rfl
@[simp] theorem Seq.setTrigMode_outcome (m : PinMode) : (q.setTrigMode p m).outcome = q.outcome := rfl

@[simp] theorem Seq.arm_usReady : (q.arm p).usReady = q.usReady := rfl
@[simp] theorem Seq.arm_usMin : (q.arm p).usMin = q.usMin := rfl
@[simp] theorem Seq.arm_usMax : (q.arm p).usMax = q.usMax := rfl
@[simp] theorem Seq.arm_usStrict : (q.arm p).usStrict = q.usStrict := rfl
@[simp] theorem Seq.arm_trigMode : (q.arm p).trigMode = .out := rfl
@[simp] theorem Seq.arm_echoMode : (q.arm p).echoMode = if p.sharedPin then .hiz else .inp := rfl
@[simp] theorem Seq.arm_trig : (q.arm p).trig = false := rfl
@[simp] theorem Seq.arm_temp : (q.arm p).temp = q.temp := rfl
@[simp] theorem Seq.arm_v : (q.arm p).v = q.v := rfl
@[simp] theorem Seq.arm_timeout : (q.arm p).timeout = q.timeout := rfl
@[simp] theorem Seq.arm_now : (q.arm p).now = q.now := rfl
@[simp] theorem Seq.arm_deadline : (q.arm p).deadline = q.deadline := rfl
@[simp] theorem Seq.arm_pstart : (q.arm p).pstart = q.pstart := rfl
@[simp] theorem Seq.arm_pend : (q.arm p).pend = q.pend := rfl
@[simp] theorem Seq.arm_nsig : (q.arm p).nsig = q.nsig := rfl
@[simp] theorem Seq.arm_outcome : (q.arm p).outcome = q.outcome := rfl

@[simp] theorem Seq.release_usReady : (q.release).usReady = q.usReady := rfl
@[simp] theorem Seq.release_usMin : (q.release).usMin = q.usMin := rfl
@[simp] theorem Seq.release_usMax : (q.release).usMax = q.usMax := rfl
@[simp] theorem Seq.release_usStrict : (q.release).usStrict = q.usStrict := rfl
@[simp] theorem Seq.release_trigMode : (q.release).trigMode = .hiz := rfl
@[simp] theorem Seq.release_echoMode : (q.release).echoMode = .hiz := rfl
@[simp] theorem Seq.release_trig : (q.release).trig = false := rfl
@[simp] theorem Seq.release_temp : (q.release).temp = q.temp := rfl
@[simp] theorem Seq.release_v : (q.release).v = q.v := rfl
@[simp] theorem Seq.release_timeout : (q.release).timeout = q.timeout := rfl
@[simp] theorem Seq.release_now : (q.release).now = q.now := rfl
@[simp] theorem Seq.release_deadline : (q.release).deadline = q.deadline := rfl
@[simp] theorem Seq.release_pstart : (q.release).pstart = q.pstart := rfl
@[simp] theorem Seq.release_pend : (q.release).pend = q.pend := rfl
@[simp] theorem Seq.release_nsig : (q.release).nsig = q.nsig := rfl
@[simp] theorem Seq.release_outcome : (q.release).outcome = q.outcome := rfl

/-! ## Operations that choose -/

variable (c : Ctl)

@[simp] theorem Ctl.advance_mode : c.advance.mode = c.mode := by unfold Ctl.advance; split <;> rfl
@[simp] theorem Ctl.advance_prescale : c.advance.prescale = c.prescale := by unfold Ctl.advance; split <;> rfl
@[simp] theorem Ctl.advance_chreg : c.advance.chreg = c.chreg := by unfold Ctl.advance; split <;> rfl
@[simp] theorem Ctl.advance_timingCorrupt : c.advance.timingCorrupt = c.timingCorrupt := by
  unfold Ctl.advance; split <;> rfl

@[simp] theorem Ctl.tick_mode : (c.tick p).mode = c.mode := by unfold Ctl.tick; split <;> simp
@[simp] theorem Ctl.tick_prescale : (c.tick p).prescale = c.prescale := by unfold Ctl.tick; split <;> simp
@[simp] theorem Ctl.tick_chreg : (c.tick p).chreg = c.chreg := by unfold Ctl.tick; split <;> simp
@[simp] theorem Ctl.tick_timingCorrupt : (c.tick p).timingCorrupt = c.timingCorrupt := by
  unfold Ctl.tick; split <;> simp
@[simp] theorem Ctl.tick_asleep : (c.tick p).asleep p = c.asleep p := by simp [Ctl.asleep]

@[simp] theorem Ctl.drawIfCorrupt_mode (n : Nat) : (c.drawIfCorrupt n).mode = c.mode := by
  unfold Ctl.drawIfCorrupt; split <;> rfl
@[simp] theorem Ctl.drawIfCorrupt_prescale (n : Nat) : (c.drawIfCorrupt n).prescale = c.prescale := by
  unfold Ctl.drawIfCorrupt; split <;> rfl
@[simp] theorem Ctl.drawIfCorrupt_chreg (n : Nat) : (c.drawIfCorrupt n).chreg = c.chreg := by
  unfold Ctl.drawIfCorrupt; split <;> rfl
@[simp] theorem Ctl.drawIfCorrupt_timingCorrupt (n : Nat) :
    (c.drawIfCorrupt n).timingCorrupt = c.timingCorrupt := by
  unfold Ctl.drawIfCorrupt; split <;> rfl
@[simp] theorem Ctl.drawIfCorrupt_of_sound (n : Nat) (h : c.timingCorrupt = false) : c.drawIfCorrupt n = c := by
  simp [Ctl.drawIfCorrupt, h]

@[simp] theorem Env.advance_busDraws (e : Env) : e.advance.busDraws = e.busDraws := by
  unfold Env.advance; split <;> rfl
@[simp] theorem Env.advance_busBase (e : Env) : e.advance.busBase = e.busBase := by unfold Env.advance; split <;> rfl
@[simp] theorem Env.advance_drawNo (e : Env) : e.advance.drawNo = e.drawNo + 1 := by unfold Env.advance; split <;> rfl
@[simp] theorem Env.advance_busDraw (e : Env) (k : Nat) : e.advance.busDraw k = e.busDraw k := by simp [Env.busDraw]
@[simp] theorem Env.advance_busLat (e : Env) (k : Nat) : e.advance.busLat k = e.busLat k := by simp [Env.busLat]

end Sys2Proof.Machine
end

