-- ==== Sys2Proof/Laws/Ops.lean ====
section
/-! SUPPORT. For each shared operation one lemma that says everything it can do. -/

namespace Sys2Proof.Machine

open Sys2Proof

/-! ## The environment -/

/-- One tick later the environment shows what it was going to show. -/
@[simp] theorem Env.pinsAt_advance (e : Env) (j : Nat) : e.advance.pinsAt j = e.pinsAt (j + 1) := by
  unfold Env.advance
  cases hs : e.script with
  | nil => cases j <;> simp [Env.pinsAt, hs, Nat.add_comm, Nat.add_left_comm]
  | cons i rest => cases j <;> simp [Env.pinsAt, hs, Nat.add_comm, Nat.add_left_comm]

theorem Env.pinsAt_zero (e : Env) : e.pinsAt 0 = e.pins := rfl

/-- Every draw of a latency is a legal one. -/
theorem Env.busLat_ne_zero (e : Env) (k : Nat) : e.busLat k ≠ 0 := by
  unfold Env.busLat
  split
  · decide
  · assumption

theorem Env.one_le_busLat (e : Env) (k : Nat) : 1 ≤ (e.busLat k).toNat := by
  have h := e.busLat_ne_zero k
  have : (e.busLat k).toNat ≠ 0 := fun h0 => h (BitVec.eq_of_toNat_eq (by simpa using h0))
  omega

/-! ## Phases -/

/-- A phase with a length acts at its last tick and otherwise counts down. -/
theorem State.timed_cases (s : State) (act : State → State) :
    (s.waitCnt = 1 ∧ s.timed act = act s) ∨
      (s.waitCnt ≠ 1 ∧ s.timed act = { s with waitCnt := s.waitCnt - 1 }) := by
  unfold State.timed
  split
  · next h => exact .inl ⟨h, rfl⟩
  · next h => exact .inr ⟨h, rfl⟩

theorem State.timed_last {s : State} {act : State → State} (h : s.waitCnt = 1) : s.timed act = act s := if_pos h

theorem State.timed_wait {s : State} {act : State → State} (h : s.waitCnt ≠ 1) :
    s.timed act = { s with waitCnt := s.waitCnt - 1 } := if_neg h

/-! ## The register bus -/

/-- A read either fails with a TransportError or hands on the byte at the address; it is counted either way. -/
theorem State.busRead_cases (s : State) (addr : Byte) (k : Byte → State → State) :
    (s.busFails = true ∧ s.busRead addr k = s.countAccess.transportError) ∨
      (s.busFails = false ∧ s.busRead addr k = k (s.peek addr) s.countAccess) := by
  unfold State.busRead
  cases h : s.busFails
  · exact .inr ⟨rfl, rfl⟩
  · exact .inl ⟨rfl, rfl⟩

/-- A write either fails with a TransportError, the controller unchanged, or is taken; it is counted either way. -/
theorem State.busWrite_cases (s : State) (addr v : Byte) (k : State → State) :
    (s.busFails = true ∧ s.busWrite addr v k = s.countAccess.transportError) ∨
      (s.busFails = false ∧
        s.busWrite addr v k = k { s.countAccess with ctl := s.ctl.poke s.params addr v }) := by
  unfold State.busWrite
  cases h : s.busFails
  · exact .inr ⟨rfl, rfl⟩
  · exact .inl ⟨rfl, rfl⟩

/-- What a taken register write does to the controller, by address. -/
theorem Ctl.poke_cases (p : Config.Params) (c : Ctl) (addr v : Byte) :
    (addr = p.regMode ∧ c.poke p addr v = c.writeMode v) ∨
      (addr ≠ p.regMode ∧ addr = p.regPrescale ∧ c.poke p addr v = c.writePrescale p v) ∨
      (addr ≠ p.regMode ∧ addr ≠ p.regPrescale ∧ isChannelReg p addr = true
        ∧ c.poke p addr v = c.writeChannel addr v) ∨
      (addr ≠ p.regMode ∧ addr ≠ p.regPrescale ∧ isChannelReg p addr = false ∧ c.poke p addr v = c) := by
  unfold Ctl.poke
  split
  · next h => exact .inl ⟨h, rfl⟩
  · next h =>
    split
    · next h' => exact .inr (.inl ⟨h, h', rfl⟩)
    · next h' =>
      cases hc : isChannelReg p addr
      · exact .inr (.inr (.inr ⟨h, h', rfl, by simp⟩))
      · exact .inr (.inr (.inl ⟨h, h', rfl, by simp⟩))

@[simp] theorem Ctl.writeMode_mode (c : Ctl) (v : Byte) : (c.writeMode v).mode = storedMode v := by
  unfold Ctl.writeMode; split <;> rfl
@[simp] theorem Ctl.writeMode_prescale (c : Ctl) (v : Byte) : (c.writeMode v).prescale = c.prescale := by
  unfold Ctl.writeMode; split <;> rfl
@[simp] theorem Ctl.writeMode_chreg (c : Ctl) (v : Byte) : (c.writeMode v).chreg = c.chreg := by
  unfold Ctl.writeMode; split <;> rfl
@[simp] theorem Ctl.writeMode_timingCorrupt (c : Ctl) (v : Byte) :
    (c.writeMode v).timingCorrupt = c.timingCorrupt := by
  unfold Ctl.writeMode; split <;> rfl

@[simp] theorem Ctl.writePrescale_mode (p : Config.Params) (c : Ctl) (v : Byte) :
    (c.writePrescale p v).mode = c.mode := by unfold Ctl.writePrescale; split <;> rfl
@[simp] theorem Ctl.writePrescale_chreg (p : Config.Params) (c : Ctl) (v : Byte) :
    (c.writePrescale p v).chreg = c.chreg := by unfold Ctl.writePrescale; split <;> rfl

/-- The stored mode byte has bit 7 clear. -/
theorem storedMode_high (v : Byte) : (storedMode v).getLsbD 7 = false := by
  simp [storedMode]

/-! ## Exact results -/

/-- An exact result that fits its 64-bit register is stored as it is. -/
theorem fit64_toNat {n : Nat} (h : n < 2 ^ 64) : (fit64 n).toNat = n := by
  rw [fit64, if_pos h, BitVec.toNat_ofNat, Nat.mod_eq_of_lt h]

/-- An exponent that fits `REXP` is stored as it is. -/
theorem fitRexp_eq {e : Int} (h : -128 ≤ e ∧ e ≤ 127) : fitRexp e = BitVec.ofInt 8 e := if_pos h

/-! ## The divider -/

/-- Part (1) of the controller's step: it advances exactly when awake and sound. -/
theorem Ctl.tick_cases (p : Config.Params) (c : Ctl) :
    ((c.asleep p = true ∨ c.timingCorrupt = true) ∧ c.tick p = c) ∨
      (c.asleep p = false ∧ c.timingCorrupt = false ∧ c.tick p = c.advance) := by
  unfold Ctl.tick
  cases ha : c.asleep p <;> cases ht : c.timingCorrupt <;> simp

end Sys2Proof.Machine
end

