-- ==== Sys2Proof/Laws/PerInstr.lean ====
section
/-! SUPPORT. Statements for all commands, one lemma per constructor. -/

namespace Sys2Proof.Laws

open Sys2Proof

namespace EncodeSelectsRow

/-- The row of the opcode map a command belongs to. -/
def row : Instr → OpcodeRow
  | .cfgfreq _ => rowCfgfreq
  | .bound _ => rowBound
  | .setpwm _ _ _ => rowSetpwm
  | .setduty _ _ => rowSetduty
  | .setservo _ _ => rowSetservo
  | .regwr _ _ => rowRegwr
  | .regrd _ => rowRegrd
  | .uscfg _ _ _ => rowUscfg
  | .measure _ => rowMeasure
  | .usrel => rowUsrel
  | .sos _ => rowSos

/-- The command's word selects its own row: the opcode and every must-be-zero bit are right (R93, R96). -/
def Statement (i : Instr) : Prop := (row i).selects (encode i) = true

theorem high16 (x : BitVec 16) : x.setWidth 32 &&& 0xFFFF0000#32 = 0#32 :=
  (high16_zero_iff _).2 (by simp)

theorem high24 (x : BitVec 8) : x.setWidth 32 &&& 0xFFFFFF00#32 = 0#32 :=
  (high24_zero_iff _).2 (by simp)

theorem cfgfreq (freq : BitVec 16) : Statement (.cfgfreq freq) := by
  simp [Statement, row, encode, high16]

theorem bound (value : BitVec 32) : Statement (.bound value) := by
  simp [Statement, row, encode]

theorem setpwm (ch : BitVec 8) (off on : BitVec 16) : Statement (.setpwm ch off on) := by
  simp [Statement, row, encode, high16]

theorem setduty (ch : BitVec 8) (duty : BitVec 16) : Statement (.setduty ch duty) := by
  simp [Statement, row, encode, high16]

theorem setservo (ch : BitVec 8) (pulseUs : BitVec 16) : Statement (.setservo ch pulseUs) := by
  simp [Statement, row, encode, high16]

theorem regwr (reg byte : BitVec 8) : Statement (.regwr reg byte) := by
  simp [Statement, row, encode, high24]

theorem regrd (reg : BitVec 8) : Statement (.regrd reg) := by
  simp [Statement, row, encode]

theorem uscfg (minCm maxCm : BitVec 16) (strict : Bool) : Statement (.uscfg minCm maxCm strict) := by
  have h : BitVec.setWidth 8 (BitVec.ofBool strict) &&& 0xFE#8 = 0#8 := by cases strict <;> decide
  simp [Statement, row, encode, high16, h]

theorem measure (nsig : BitVec 8) : Statement (.measure nsig) := by
  simp [Statement, row, encode]

theorem usrel : Statement .usrel := by
  simp [Statement, row, encode]

theorem sos (tempCk : BitVec 16) : Statement (.sos tempCk) := by
  simp [Statement, row, encode, high16]

end EncodeSelectsRow

end Sys2Proof.Laws
end

