-- ==== Sys2Proof/Laws/Steering.lean ====
section
/-! SUPPORT. What the host's routine does with an answer, case by case. -/

namespace Sys2Proof.Machine

open Sys2Proof

variable {nch : Nat}

theorem Resp.steeringError_ok {r : Resp} (hr : r.rstat = 0) : r.steeringError = none := by
  simp [Resp.steeringError, hr, statusCode]

theorem Resp.steeringError_transport {r : Resp} (hr : r.rstat = 3) : r.steeringError = some (.transportError r.rval) := by
  simp [Resp.steeringError, hr, statusCode]

/-- An error ends the call in flight, whatever it is. -/
theorem SteeringHost.receive_error {h : SteeringHost nch} {r : Resp} {e : SteeringError} (ht : h.task ≠ .idle)
    (he : r.steeringError = some e) : h.receive r = h.finish (some e) := by
  unfold SteeringHost.receive
  cases hk : h.task with
  | idle => exact absurd hk ht
  | bounding speed m reversing => simp [he]
  | programming cmd rest => simp [he]
  | stopping cmd rest => simp [he]

/-- BOUND answered with a duty: `move` carries out its plan. -/
theorem SteeringHost.receive_duty {h : SteeringHost nch} {r : Resp} {speed : Int} {m : Maneuver} {reversing : Bool}
    (ht : h.task = .bounding speed m reversing) (he : r.steeringError = none) :
    h.receive r = h.carryOut (movePlan h.cfg m reversing (r.rval.setWidth 16)) := by
  simp [SteeringHost.receive, ht, he]

/-- A SETDUTY of `move` answered OK: it goes on with the rest. -/
theorem SteeringHost.receive_programmed {h : SteeringHost nch} {r : Resp} {cmd : Instr} {rest : List Instr}
    (ht : h.task = .programming cmd rest) (he : r.steeringError = none) : h.receive r = h.program rest := by
  simp [SteeringHost.receive, ht, he]

/-- A SETDUTY of teardown answered OK: it goes on with the rest, and releases the pins after the last. -/
theorem SteeringHost.receive_stopped {h : SteeringHost nch} {r : Resp} {cmd : Instr} {rest : List Instr}
    (ht : h.task = .stopping cmd rest) (he : r.steeringError = none) : h.receive r = h.stop rest := by
  simp [SteeringHost.receive, ht, he]

end Sys2Proof.Machine
end

