-- ==== Sys2Proof/Laws/Step.lean ====
section
/-! SUPPORT. Once and for all: what one step can do. Every invariant is derived from these lemmas. -/

namespace Sys2Proof.Machine

open Sys2Proof

/-! ## The meanings -/

theorem programChannel_cases (ch : BitVec 8) (off on : BitVec 16) (s : State) :
    (ch.toNat < s.params.nch ∧ programChannel ch off on s = .next (State.enterBus
        { s with drv := { s.drv with
            waddr := chBase s.params ch.toNat
            wdata0 := (split16 on).1, wdata1 := (split16 on).2
            wdata2 := (split16 off).1, wdata3 := (split16 off).2 } } .spW0)) ∨
      (s.params.nch ≤ ch.toNat ∧ programChannel ch off on s = .next (s.raise .channelRange (ch.setWidth 32))) := by
  unfold programChannel
  split
  · next h => exact .inl ⟨h, rfl⟩
  · next h => exact .inr ⟨Nat.le_of_not_lt h, rfl⟩

/-- Every command's acceptance rule goes on to a next state. -/
theorem exec_next (i : Instr) (s : State) : ∃ t, exec i s = .next t := by
  cases i with
  | cfgfreq freq => show ∃ t, execCfgfreq freq s = .next t; unfold execCfgfreq; split <;> exact ⟨_, rfl⟩
  | bound value => show ∃ t, execBound value s = .next t; unfold execBound; split <;> exact ⟨_, rfl⟩
  | setpwm ch off on => rcases programChannel_cases ch off on s with ⟨-, h⟩ | ⟨-, h⟩ <;> exact ⟨_, h⟩
  | setduty ch duty => rcases programChannel_cases ch duty 0 s with ⟨-, h⟩ | ⟨-, h⟩ <;> exact ⟨_, h⟩
  | setservo ch pulseUs =>
    rcases programChannel_cases ch (servoSteps pulseUs) 0 s with ⟨-, h⟩ | ⟨-, h⟩ <;> exact ⟨_, h⟩
  | regwr reg byte => exact ⟨_, rfl⟩
  | regrd reg => exact ⟨_, rfl⟩
  | uscfg minCm maxCm strict =>
    show ∃ t, execUscfg minCm maxCm strict s = .next t
    unfold execUscfg
    split
    · exact ⟨_, rfl⟩
    · split
      · exact ⟨_, rfl⟩
      · split <;> exact ⟨_, rfl⟩
  | measure nsig =>
    show ∃ t, execMeasure nsig s = .next t
    unfold execMeasure
    split
    · split <;> exact ⟨_, rfl⟩
    · exact ⟨_, rfl⟩
  | usrel => show ∃ t, execUsrel s = .next t; unfold execUsrel; split <;> exact ⟨_, rfl⟩
  | sos tempCk => exact ⟨_, rfl⟩

/-! ## The rule of a tick -/

/-- The rule of a tick without reset: an accepted command, an illegal word, or the phase in flight. -/
theorem State.commandTick_cases {s u : State} (h : s.commandTick = .next u) :
    (s.phase = .idle ∧ s.inputs.cmdValid = true ∧
        ((∃ i, decode s.inputs.cmd = .ok i ∧ exec i (s.latch s.inputs.cmd) = .next u) ∨
          (∃ e, decode s.inputs.cmd = .error e ∧ u = (s.latch s.inputs.cmd).raise .illegalCommand 0))) ∨
      ((s.phase ≠ .idle ∨ s.inputs.cmdValid = false) ∧ u = s.phaseTick) := by
  unfold State.commandTick at h
  split at h
  · next ha =>
    simp only [State.accepts, Bool.and_eq_true, beq_iff_eq] at ha
    refine .inl ⟨ha.1, ha.2, ?_⟩
    unfold State.accept at h
    cases hd : decode s.inputs.cmd with
    | ok i => rw [hd] at h; exact .inl ⟨i, rfl, h⟩
    | error e =>
      rw [hd] at h
      injection h with h
      exact .inr ⟨e, rfl, h.symm⟩
  · next ha =>
    refine .inr ⟨?_, ?_⟩
    · by_contra hc
      rw [not_or] at hc
      exact ha (by simp only [State.accepts, Bool.and_eq_true, beq_iff_eq]; exact ⟨not_not.1 hc.1, by simpa using hc.2⟩)
    · injection h with h
      exact h.symm

/-- Every tick without reset goes on to a next state. -/
theorem State.commandTick_next (s : State) : ∃ u, s.commandTick = .next u := by
  unfold State.commandTick
  split
  · unfold State.accept
    split
    · exact exec_next _ _
    · exact ⟨_, rfl⟩
  · exact ⟨_, rfl⟩

/-! ## One step -/

/-- A step that goes on is a reset or one tick of the block's rules. -/
theorem step_cases {s t : State} (h : step s = .next t) :
    paramsOk s.params = true ∧
      ((s.inputs.rst = true ∧ t = s.resetTick) ∨
        (s.inputs.rst = false ∧ ∃ u, s.dividerTick.commandTick = .next u ∧ t = u.clockEdge)) := by
  unfold step at h
  split at h
  · next hp =>
    refine ⟨hp, ?_⟩
    split at h
    · next hr =>
      injection h with h
      exact .inl ⟨hr, h.symm⟩
    · next hr =>
      refine .inr ⟨by simpa using hr, ?_⟩
      obtain ⟨u, hu⟩ := s.dividerTick.commandTick_next
      rw [State.tick, hu] at h
      injection h with h
      exact ⟨u, hu, h.symm⟩
  · cases h

/-- A running block's step, in terms of the rule of the tick. -/
theorem step_running {s u : State} (h : s.running) (hu : s.dividerTick.commandTick = .next u) :
    step s = .next u.clockEdge := by
  simp [step, h.1, h.2, State.tick, hu, endTick]

/-- In a phase other than `IDLE`, the step is the phase's rule. -/
theorem step_busy {s : State} (h : s.running) (hp : s.phase ≠ .idle) :
    step s = .next s.dividerTick.phaseTick.clockEdge := by
  refine step_running h ?_
  unfold State.commandTick
  rw [if_neg]
  simp [State.accepts, hp]

/-- Runs one step at a time. -/
theorem State.run_succ (s : State) (n : Nat) {t : State} (h : step s = .next t) : s.run (n + 1) = t.run n := by
  have h' : Sys2Proof.core.step s = .next t := h
  simp only [State.run, Host.Core.run, h']
  rfl

theorem State.run_zero (s : State) : s.run 0 = .next s := rfl

end Sys2Proof.Machine
end

