-- ==== Sys2Proof/Tests/Slice0.lean ====
section
/-! SUPPORT. The model's own tests: the well-formedness smoke test, the words of 30_encoding.md R101 and R98, one-tick
tests with the values of 95_test_vectors.md (the section stands beside each), and a witness for the hypotheses of every
statement of Certificates/Slice0/Obligations.lean that has hypotheses. -/

namespace Sys2Proof.Tests

open Sys2Proof Sys2Proof.Machine

/-! ## A small state -/

/-- Short pulses and waits: with a maximum of 1 cm, `TO` is 5 ticks. -/
def tinyParams : Config.Params :=
  { Config.defaults with oscHz := 100000, trigTicks := 2, settleTicks := 2 }

/-- The pins with a word presented. -/
def pinsCmd (w : Word) : Config.Inputs := ⟨false, true, w, false, 29815, false⟩

/-- The pins with no command. -/
def pinsQuiet : Config.Inputs := ⟨false, false, 0, false, 29815, false⟩

/-- The pins with the echo high. -/
def pinsEcho : Config.Inputs := { pinsQuiet with echo := true }

/-- The pins with a hardware error. -/
def pinsHwErr : Config.Inputs := { pinsQuiet with hwErr := true }

/-- An access of one tick that succeeds. -/
def drawOk : Config.BusDraw := ⟨1, false⟩

/-- After reset with `PRESCALE` drawn as 0x1E, the given pins now and quiet ones after them. -/
def start (p : Config.Params) (pins : Config.Inputs) : State :=
  State.resetWith p ⟨pins, List.replicate 16 pinsQuiet, 0, List.replicate 6 drawOk, 0⟩ 0x1E

/-- The small state with a word presented. -/
def withWord (w : Word) : State := start tinyParams (pinsCmd w)

/-- The small state in a phase that is at its last tick. -/
def inPhase (ph : Phase) : State := { start tinyParams pinsQuiet with phase := ph, waitCnt := 1 }

/-- The small state with the range finder constructed for 1 to 1 cm. -/
def ready (s : State) : State :=
  { s with seq := Seq.arm s.params { s.seq with usReady := true, usMin := 1, usMax := 1 } }

/-- The next state of an outcome, or the state itself. -/
def nextOr (s : State) : Host.Outcome State Fault Refusal → State
  | .next t => t
  | .fault _ => s
  | .refused _ => s

/-- The state after a step. -/
def after (s : State) : State := nextOr s (step s)

/-- With legal parameters a step answers `after`. -/
theorem step_after (s : State) (h : paramsOk s.params = true) : step s = .next (after s) := by
  obtain ⟨u, hu⟩ := s.dividerTick.commandTick_next
  simp only [after, step, h, if_true, State.tick, hu, endTick]
  split <;> rfl

/-- The state after a command's acceptance rule. -/
def execAfter (i : Instr) (s : State) : State := nextOr s (exec i s)

theorem exec_after (i : Instr) (s : State) : exec i s = .next (execAfter i s) := by
  obtain ⟨t, h⟩ := exec_next i s
  simp only [execAfter, h, nextOr]

/-- The state after a run. -/
def runOf (s : State) (n : Nat) : State := nextOr s (s.run n)

/-! ## Well-formedness: a term each check refuses (R93) -/

theorem test_wf_refuses_freq_zero : (Instr.cfgfreq 0).wf = false := by decide
theorem test_wf_refuses_nsig_zero : (Instr.measure 0).wf = false := by decide
theorem test_wf_refuses_nsig_ten : (Instr.measure 10).wf = false := by decide
theorem test_wf_accepts_bounds : (Instr.cfgfreq 1).wf = true ∧ (Instr.measure 1).wf = true ∧ (Instr.measure 9).wf = true := by
  decide

/-! ## Decoding: the words of R101 -/

theorem test_decode_cfgfreq : decode 0x0100000000000032 = .ok (.cfgfreq 50) := by decide
theorem test_decode_bound : decode 0x0200000000000064 = .ok (.bound 100) := by decide
theorem test_decode_bound_negative : decode 0x02000000FFFFEC78 = .ok (.bound (-5000)) := by decide
theorem test_decode_setpwm : decode 0x03030000000003E8 = .ok (.setpwm 3 1000 0) := by decide
theorem test_decode_setpwm_on : decode 0x030300C8000003E8 = .ok (.setpwm 3 1000 200) := by decide
theorem test_decode_setduty : decode 0x0400000000000FFF = .ok (.setduty 0 4095) := by decide
theorem test_decode_setservo : decode 0x050F0000000005DC = .ok (.setservo 15 1500) := by decide
theorem test_decode_regwr : decode 0x08FE000000000079 = .ok (.regwr 0xFE 121) := by decide
theorem test_decode_regrd : decode 0x0900000000000000 = .ok (.regrd 0) := by decide
theorem test_decode_uscfg : decode 0x1000000200000190 = .ok (.uscfg 2 400 false) := by decide
theorem test_decode_uscfg_strict : decode 0x1001000200000190 = .ok (.uscfg 2 400 true) := by decide
theorem test_decode_measure : decode 0x1103000000000000 = .ok (.measure 3) := by decide
theorem test_decode_usrel : decode 0x1200000000000000 = .ok .usrel := by decide
theorem test_decode_sos : decode 0x1800000000007477 = .ok (.sos 29815) := by decide

/-- The illegal words of R101, in its order. -/
theorem test_decode_illegal :
    decode 0x0000000000000000 = .error .unusedOpcode ∧ decode 0x0100000000000000 = .error .freqZero
      ∧ decode 0x0101000000000032 = .error .reservedBits ∧ decode 0x1100000000000000 = .error .nsigRange
      ∧ decode 0x110A000000000000 = .error .nsigRange ∧ decode 0x1002000200000190 = .error .reservedBits
      ∧ decode 0x0400000100000000 = .error .reservedBits := by decide

/-- The unused opcodes of 95_test_vectors.md 2.11. -/
theorem test_decode_unused :
    decode 0x0600000000000000 = .error .unusedOpcode
      ∧ decode 0x0700000000000000 = .error .unusedOpcode
      ∧ decode 0x0A00000000000000 = .error .unusedOpcode
      ∧ decode 0x0F00000000000000 = .error .unusedOpcode
      ∧ decode 0x1300000000000000 = .error .unusedOpcode
      ∧ decode 0x1700000000000000 = .error .unusedOpcode
      ∧ decode 0x1900000000000000 = .error .unusedOpcode
      ∧ decode 0xFFFFFFFFFFFFFFFF = .error .unusedOpcode := by decide

theorem test_encode_words :
    encode (.setpwm 3 1000 200) = 0x030300C8000003E8 ∧ encode (.uscfg 2 400 true) = 0x1001000200000190
      ∧ encode (.bound (-5000)) = 0x02000000FFFFEC78 ∧ encode (.regwr 0xFE 121) = 0x08FE000000000079 := by decide

theorem test_decodeTableWord : decodeTableWord 64 0x1103000000000000 = some (.measure 3)
    ∧ decodeTableWord 64 0 = none := by decide

/-! ## One acceptance or one tick per command (95_test_vectors.md section 2) -/

/-- 2.3: `CFGFREQ 50` at 25 MHz holds prescale 121 and reads the mode first. -/
theorem test_cfgfreq_accepted :
    (execAfter (.cfgfreq 50) (start Config.defaults pinsQuiet)).drv.pre = 121
      ∧ (execAfter (.cfgfreq 50) (start Config.defaults pinsQuiet)).phase = .cfRead := by decide

/-- 2.3: `CFGFREQ 12208` is refused with −1. -/
theorem test_cfgfreq_range :
    (execAfter (.cfgfreq 12208) (start Config.defaults pinsQuiet)).resp.word = 0x09000000FFFFFFFF := by decide

/-- 2.4: `BOUND -5000`. -/
theorem test_bound_clamps :
    (execAfter (.bound (-5000)) (start tinyParams pinsQuiet)).resp.word = 0x0001000000000FFF := by decide

/-- 2.4: `BOUND -2147483648`, strict. -/
theorem test_bound_strict :
    (execAfter (.bound 0x80000000) (start { tinyParams with pwmStrict := true } pinsQuiet)).resp.word
      = 0x0200000080000000 := by decide

/-- 2.5: `SETPWM 0, 100, 4000` writes 0xA0, 0x0F, 0x64, 0x00 from 0x06. -/
theorem test_setpwm_bytes :
    (execAfter (.setpwm 0 100 4000) (start tinyParams pinsQuiet)).drv
      = ⟨0, 0, 0, 0x06, 0xA0, 0x0F, 0x64, 0x00⟩ := by decide

/-- 2.5: `SETPWM 16, 0`. -/
theorem test_setpwm_range :
    (execAfter (.setpwm 16 0 0) (start tinyParams pinsQuiet)).resp.word = 0x0700000000000010 := by decide

/-- 2.5: `SETDUTY 1, 100` writes 0x00, 0x00, 0x64, 0x00 from 0x0A. -/
theorem test_setduty_bytes :
    (execAfter (.setduty 1 100) (start tinyParams pinsQuiet)).drv
      = ⟨0, 0, 0, 0x0A, 0x00, 0x00, 0x64, 0x00⟩ := by decide

/-- 2.5: `SETSERVO 15, 1500` writes 0x00, 0x00, 0x33, 0x01 from 0x42. -/
theorem test_setservo_bytes :
    (execAfter (.setservo 15 1500) (start tinyParams pinsQuiet)).drv
      = ⟨0, 0, 0, 0x42, 0x00, 0x00, 0x33, 0x01⟩ := by decide

/-- The small state at the tick that performs a REGWR of a byte to a register. -/
def writing (reg byte : Byte) : State :=
  { inPhase .rgWr with drv := ⟨0, 0, 0, reg, byte, 0, 0, 0⟩ }

/-- 2.6: `REGWR 0xFE, 3` while awake leaves `PRESCALE` and corrupts the timing. -/
theorem test_regwr_prescale_awake :
    (after (writing 0xFE 3)).ctl.prescale = 0x1E ∧ (after (writing 0xFE 3)).ctl.timingCorrupt = true := by decide

/-- 2.6: `REGWR 0x00, 0xFF` stores 0x7F and zeroes the counters. -/
theorem test_regwr_restart : (after (writing 0 0xFF)).ctl = ⟨0x7F, 0x1E, [], 0, 0, false⟩ := by decide

/-- 2.6: `REGRD 0xFE` answers the prescale. -/
theorem test_regrd_prescale :
    (after { inPhase .rgRd with drv := ⟨0, 0, 0, 0xFE, 0, 0, 0, 0⟩ }).resp.word = 0x000100000000001E := by decide

/-- 2.8: `USCFG 5, 4` and `USCFG 0, 0`. -/
theorem test_uscfg_errors :
    (execAfter (.uscfg 5 4 false) (start tinyParams pinsQuiet)).resp.word = 0x0100000000000002
      ∧ (execAfter (.uscfg 0 0 false) (start tinyParams pinsQuiet)).resp.word = 0x0100000000000001 := by decide

/-- 2.8: `USCFG 7, 7` is accepted and arms the pins. -/
theorem test_uscfg_arms :
    (execAfter (.uscfg 7 7 false) (start tinyParams pinsQuiet)).seq.trigMode = .out
      ∧ (execAfter (.uscfg 7 7 false) (start tinyParams pinsQuiet)).seq.echoMode = .inp := by decide

/-- 2.9: `Timeout(400, 346204)` at 25 MHz, and the pulse begins. -/
theorem test_measure_deadline :
    (execAfter (.measure 3) { start Config.defaults pinsQuiet with
        seq := { Seq.reset with usReady := true, usMin := 2, usMax := 400 } }).seq.timeout = 577694
      ∧ (execAfter (.measure 3) (ready (start tinyParams pinsQuiet))).seq.trig = true := by decide

/-- 2.9: the responses of `DistSig(346204, 58309, 3)` and `DistSig(346204, 14441, 1)`. -/
theorem test_measure_distances :
    distSig 25000000 346204 58309 3 = (404, -1) ∧ distSig 25000000 346204 14441 1 = (1, 1) := by decide

/-- 2.8: `USREL` without a construction. -/
theorem test_usrel_error :
    (execAfter .usrel (start tinyParams pinsQuiet)).resp.word = 0x0800000000000000 := by decide

/-- 2.8: `USREL` releases the pins. -/
theorem test_usrel_releases :
    (execAfter .usrel (ready (start tinyParams pinsQuiet))).seq.trigMode = .hiz := by decide

/-- 2.9: `SOS 27315`. -/
theorem test_sos : (execAfter (.sos 27315) (start tinyParams pinsQuiet)).resp.word = 0x0001000000050E6B := by decide

/-- From reset, a word placed on the port runs at the next step: `SOS 29815`, `BOUND 100`. -/
theorem test_step_runs_fetch_word :
    (after (State.reset.withFetchWord 64 0x1800000000007477)).resp.word = 0x000100000005485C
      ∧ (after (State.reset.withFetchWord 64 0x0200000000000064)).resp.word = 0x0001000000000064 := by decide

/-- 2.7: the comparator's wrapping interval. -/
theorem test_comparator :
    comparator 4000 100 4000 = true ∧ comparator 4000 100 99 = true ∧ comparator 4000 100 100 = false
      ∧ comparator 500 500 500 = false ∧ comparator 1 0 0 = false := by decide

/-- 2.7: a stale `PSC` wraps at once. -/
theorem test_divider_stale_psc :
    (Ctl.tick tinyParams ⟨0, 5, [], 200, 7, false⟩) = ⟨0, 5, [], 0, 8, false⟩ := by decide

/-- 2.9: ties and carries of the rounding. -/
theorem test_roundSig :
    roundSig ⟨5, 2⟩ 1 = (3, 0) ∧ roundSig ⟨1, 200⟩ 1 = (5, -3) ∧ roundSig ⟨95, 1⟩ 1 = (1, 2)
      ∧ roundSig ⟨9995, 1000⟩ 3 = (100, -1) ∧ roundSig ⟨0, 1⟩ 3 = (0, 0) := by decide

/-- Host data of program P2. -/
def wheelConfig : SteeringConfig 16 := ⟨some .crabWalk, 5, 6, 7, 8, 0, 1, 2, 3, false, by decide⟩

/-- A host constructed with them. -/
def wheelHost : SteeringHost 16 := ⟨wheelConfig, [5, 6, 7, 8], none, .idle, none⟩

theorem test_steering_constructs : steeringConstruct wheelConfig = .ok wheelHost
    ∧ steeringConstruct { wheelConfig with model := some .mecanum } = .error .unimplementedCapability
    ∧ steeringConstruct { wheelConfig with model := none } = .error .configurationError := by decide

/-- `n` ticks of a host and a block, the system itself if they stop. -/
def coupled : Nat → SteeringSystem 16 → SteeringSystem 16
  | 0, y => y
  | n + 1, y =>
    match y.tick with
    | .next z => coupled n z
    | .fault _ => y
    | .refused _ => y

/-- A call of the host on the small block; the accesses fail from the given one on. -/
def called (h : SteeringHost 16) (okAccesses : Nat) : SteeringSystem 16 :=
  ⟨h, State.resetWith tinyParams
      ⟨pinsQuiet, List.replicate 24 pinsQuiet, 0, List.replicate okAccesses drawOk ++ [⟨1, true⟩], 0⟩ 0x1E, false⟩

/-- E11, P2: `move(100, turn-left, false)` after its 21 ticks: the pins, the four channels, the return. -/
theorem test_move_turn_left :
    (coupled 21 (called (wheelHost.move 100 .turnLeft false) 16)).host
        = { wheelHost with dirs := some ⟨true, false, true, false⟩ }
      ∧ (coupled 21 (called (wheelHost.move 100 .turnLeft false) 16)).block.peek 0x08 = 100
      ∧ (coupled 21 (called (wheelHost.move 100 .turnLeft false) 16)).block.peek 0x14 = 100 := by decide +kernel

/-- R264: a TransportError at the second write of the second SETDUTY ends the call, one wheel programmed. -/
theorem test_move_transport_error :
    (coupled 9 (called (wheelHost.move 100 .turnLeft false) 5)).host.error = some (.transportError 1)
      ∧ (coupled 9 (called (wheelHost.move 100 .turnLeft false) 5)).host.task = .idle
      ∧ (coupled 9 (called (wheelHost.move 100 .turnLeft false) 5)).block.peek 0x08 = 100 := by decide +kernel

/-- R267: the pins are held until the fourth OK, at the twentieth tick. -/
theorem test_teardown :
    (coupled 19 (called wheelHost.teardown 16)).host.claimed = [5, 6, 7, 8]
      ∧ (coupled 20 (called wheelHost.teardown 16)).host.claimed = [] := by decide

/-! ## Witnesses: the hypotheses of the statements can be met -/

theorem test_witness_DecodeOfEncode : (Instr.cfgfreq 1).wf = true ∧ (Instr.cfgfreq 65535).wf = true
    ∧ (Instr.measure 1).wf = true ∧ (Instr.measure 9).wf = true ∧ (Instr.bound 0x80000000).wf = true := by decide

theorem test_witness_EncodeOfDecode : decode 0x030300C8000003E8 = .ok (.setpwm 3 1000 200) := by decide

theorem test_witness_StepRunsDecodedCommand :
    (withWord 0x1103000000000000).running ∧ (withWord 0x1103000000000000).presents (.measure 3) := by decide

theorem test_witness_IllegalWordAnswered :
    (withWord 0).running ∧ (withWord 0).phase = .idle ∧ (withWord 0).inputs.cmdValid = true
      ∧ decode (withWord 0).inputs.cmd = .error .unusedOpcode := by decide

theorem test_witness_BusyBlockTakesNoCommand : (inPhase .usRise).phase ≠ .idle := by decide

/-- R5 bounds the clock from below only. -/
theorem test_witness_StepGoesOn : paramsOk Config.defaults = true ∧ paramsOk tinyParams = true
    ∧ paramsOk { Config.defaults with oscHz := 2 ^ 40 } = true
    ∧ paramsOk { Config.defaults with oscHz := 0 } = false := by decide

/-- One parameter set for each clause; the first has the channel block end one past 0xFF. -/
theorem test_witness_BadParametersRefused :
    (255 < ({ Config.defaults with regChBase := 0xC1 } : Config.Params).regChBase.toNat + 4 * 16 - 1)
      ∧ ¬ (255 < ({ Config.defaults with regChBase := 0xC0 } : Config.Params).regChBase.toNat + 4 * 16 - 1)
      ∧ paramsOk { Config.defaults with regMode := 0x06 } = false
      ∧ paramsOk { Config.defaults with regMode := 0x45 } = false
      ∧ paramsOk { Config.defaults with regPrescale := 0x06 } = false
      ∧ paramsOk { Config.defaults with regPrescale := 0x46 } = true
      ∧ paramsOk { Config.defaults with regPrescale := 0x00 } = false
      ∧ (∀ b < 7, (0x80#8 : Byte) ≠ BitVec.ofNat 8 (2 ^ b)) ∧ paramsOk { Config.defaults with sleepMask := 0x80 } = false
      ∧ paramsOk { Config.defaults with sosDefaultMmS := 0 } = false
      ∧ paramsOk { Config.defaults with trigTicks := 0 } = false
      ∧ paramsOk { Config.defaults with settleTicks := 0 } = false := by decide

theorem test_witness_ResetTickClearsState :
    paramsOk (inPhase .usFall).params = true
      ∧ (start tinyParams { pinsQuiet with rst := true }).inputs.rst = true := by decide

theorem test_witness_ResetPinsAreSafe :
    paramsOk tinyParams = true ∧ (start tinyParams pinsQuiet).env.pins.rst = false
      ∧ (start tinyParams pinsQuiet).env.pins.cmdValid = false := by decide

theorem test_witness_TimeAdvancesEveryTick :
    (inPhase .usRise).running ∧ (inPhase .usRise).time.toNat < 2 ^ 63
      ∧ step (inPhase .usRise) = .next (after (inPhase .usRise)) :=
  ⟨by decide, by decide, step_after _ (by decide)⟩

theorem test_witness_PrescaleIsNearest : 1 ≤ 50 ∧ presc 25000000 50 = 121 ∧ presc 20480 1 = 4 := by decide

/-- At the default clock the prescale fits from 24 Hz to 12207 Hz; the bound 255 | 256 itself at another clock. -/
theorem test_witness_CfgfreqAccepted :
    presc 25000000 24 = 253 ∧ presc 25000000 12207 = 0 ∧ presc (4096 * 256) 1 = 255 := by decide

theorem test_witness_CfgfreqOutOfRangeRefused : presc 25000000 12208 < 0 ∧ presc (4096 * 257) 1 = 256 := by decide

theorem test_witness_CfgfreqCompletes :
    (withWord 0x0100000000000001).presents (.cfgfreq 1) ∧ presc tinyParams.oscHz 1 = 23
      ∧ 8 = 1 + (withWord 0x0100000000000001).latencies 5 + tinyParams.settleTicks.toNat
      ∧ (withWord 0x0100000000000001).runningFor 8 ∧ (withWord 0x0100000000000001).accessesSucceed 5
      ∧ (withWord 0x0100000000000001).ctl.mode.getLsbD 7 = false := by decide

/-- The prescale register after that run: 23. -/
theorem test_cfgfreq_run : (runOf (withWord 0x0100000000000001) 8).ctl.prescale = 23 := by decide

/-- A restart write of `CFGFREQ 50` at its tick. -/
def restarting : State := { inPhase .cfRestart with cmd := 0x0100000000000032 }

theorem test_witness_FreqChangesOnlyByCfgfreq :
    step restarting = .next (after restarting) ∧ (after restarting).drv.freq ≠ restarting.drv.freq :=
  ⟨step_after _ (by decide), by decide⟩

theorem test_witness_BoundLaws : tinyParams.pwmStrict = false ∧ 1 ≤ tinyParams.res ∧ tinyParams.res ≤ 16 := by decide

/-- The values where BOUND's clauses meet, strict: 4095, 4096, −1. -/
theorem test_bound_edges :
    (execAfter (.bound 4095) (start { tinyParams with pwmStrict := true } pinsQuiet)).resp.word = 0x0001000000000FFF
      ∧ (execAfter (.bound 4096) (start { tinyParams with pwmStrict := true } pinsQuiet)).resp.word = 0x0200000000001000
      ∧ (execAfter (.bound (-1)) (start { tinyParams with pwmStrict := true } pinsQuiet)).resp.word
          = 0x0200000000000001 := by decide

/-- The last channel, for each of the three commands; 307 steps for 1500 µs. -/
theorem test_witness_ChannelCommandsAccepted :
    (15#8 : BitVec 8).toNat < tinyParams.nch ∧ (307#16 : BitVec 16).toNat = (1500#16 : BitVec 16).toNat * 4096 / 20000
      ∧ ((0#16 : BitVec 16) = 0) := by decide

theorem test_witness_ChannelOutOfRangeRefused : tinyParams.nch ≤ (16#8 : BitVec 8).toNat := by decide

theorem test_witness_ChannelCommandCompletes :
    (withWord 0x050F0000000005DC).presents (.setservo 15 1500)
      ∧ (307#16 : BitVec 16).toNat = (1500#16 : BitVec 16).toNat * 4096 / 20000
      ∧ (15#8 : BitVec 8).toNat < (withWord 0x050F0000000005DC).params.nch
      ∧ 5 = 1 + (withWord 0x050F0000000005DC).latencies 4 ∧ (withWord 0x050F0000000005DC).runningFor 5
      ∧ (withWord 0x050F0000000005DC).accessesSucceed 4 ∧ (withWord 0x050F0000000005DC).ctl.chreg.wf = true
      ∧ (withWord 0x030300C8000003E8).presents (.setpwm 3 1000 200)
      ∧ (withWord 0x0400000000000FFF).presents (.setduty 0 4095) := by decide

/-- P1: the memory after `SETPWM 3, 1000, 200` lists the three bytes that are not blank. -/
theorem test_setpwm_run :
    (runOf (withWord 0x030300C8000003E8) 5).ctl.chreg = [(0x12, 0xC8), (0x14, 0xE8), (0x15, 0x03)] := by decide

/-- The small state at one of the four writes of a channel command for channel 3. -/
def writingChannel (ph : Phase) : State := { inPhase ph with drv := ⟨0, 0, 0, 0x12, 0xC8, 0x01, 0xE8, 0x03⟩ }

theorem test_witness_ChannelWritesOneByteAtATime :
    ∀ x ∈ [(Phase.spW0, 0#8), (.spW1, 1#8), (.spW2, 2#8), (.spW3, 3#8)],
      (writingChannel x.1).running ∧ (writingChannel x.1).lastTick x.1 ∧ (writingChannel x.1).busFails = false
        ∧ (writingChannel x.1).ctl.chreg.wf = true
        ∧ isChannelReg (writingChannel x.1).params ((writingChannel x.1).drv.waddr + x.2) = true := by decide

theorem test_witness_RegwrCompletes :
    (withWord 0x08FE000000000079).presents (.regwr 0xFE 121) ∧ 2 = 1 + (withWord 0x08FE000000000079).latencies 1
      ∧ (withWord 0x08FE000000000079).runningFor 2 ∧ (withWord 0x08FE000000000079).accessesSucceed 1
      ∧ (withWord 0x08FE000000000079).ctl.chreg.wf = true := by decide

/-- The four kinds of address the clauses of a register write tell apart. -/
theorem test_witness_RegwrCompletes_clauses :
    (0x00#8 : Byte) = tinyParams.regMode ∧ (0xFE#8 : Byte) = tinyParams.regPrescale
      ∧ isChannelReg tinyParams 0x06 = true ∧ isChannelReg tinyParams 0x45 = true
      ∧ isChannelReg tinyParams 0x05 = false ∧ isChannelReg tinyParams 0x46 = false := by decide

theorem test_witness_RegrdCompletes :
    (withWord 0x0900000000000000).presents (.regrd 0) ∧ 2 = 1 + (withWord 0x0900000000000000).latencies 1
      ∧ (withWord 0x0900000000000000).runningFor 2 ∧ (withWord 0x0900000000000000).accessesSucceed 1 := by decide

/-- The clauses of USCFG's rule: minimum 0, maximum below the minimum, equal bounds, already constructed. -/
theorem test_witness_UscfgRule :
    (0#16 : BitVec 16).toNat = 0 ∧ (4#16 : BitVec 16).toNat < (5#16 : BitVec 16).toNat
      ∧ ¬ (7#16 : BitVec 16).toNat < (7#16 : BitVec 16).toNat
      ∧ (ready (start tinyParams pinsQuiet)).seq.usReady = true
      ∧ (execAfter (.uscfg 7 7 false) (ready (start tinyParams pinsQuiet))).resp.word = 0x0100000000000003 := by decide

/-- A command word that is accepted by the range finder. -/
def configuring : State := withWord 0x1000000100000001

theorem test_witness_ReadinessChangesOnlyByItsCommands :
    step configuring = .next (after configuring) ∧ (after configuring).seq.usReady ≠ configuring.seq.usReady :=
  ⟨step_after _ (by decide), by decide⟩

theorem test_witness_AcceptanceErrorsArePrecise :
    (start tinyParams pinsQuiet).phase = .idle
      ∧ exec .usrel (start tinyParams pinsQuiet) = .next (execAfter .usrel (start tinyParams pinsQuiet))
      ∧ (execAfter .usrel (start tinyParams pinsQuiet)).phase = .idle
      ∧ (execAfter .usrel (start tinyParams pinsQuiet)).resp.rstat ≠ 0 :=
  ⟨by decide, exec_after _ _, by decide, by decide⟩

theorem test_witness_AcceptanceLeavesController :
    exec (.cfgfreq 1) (start tinyParams pinsQuiet) = .next (execAfter (.cfgfreq 1) (start tinyParams pinsQuiet)) :=
  exec_after _ _

theorem test_witness_NotConfiguredRefused : (start tinyParams pinsQuiet).seq.usReady = false := by decide

/-- The range finder ready, `MEASURE 3` presented. -/
def measuring (pins : List Config.Inputs) : State :=
  ready (State.resetWith tinyParams ⟨pinsCmd 0x1103000000000000, pins, 0, [], 0⟩ 0x1E)

theorem test_witness_MeasureAccepted :
    (measuring []).seq.usReady = true
      ∧ ((346204#32, 29815#16) : BitVec 32 × BitVec 16) =
          (if (measuring []).params.thermPresent then (sosMm (measuring []).inputs.temp, (measuring []).inputs.temp)
          else ((measuring []).params.sosDefaultMmS, 29815))
      ∧ (measuring []).inputs.hwErr = false ∧ (346204#32 : BitVec 32) ≠ 0
      ∧ (5#64 : BitVec 64) = fit64 (20 * (measuring []).seq.usMax.toNat * (measuring []).params.oscHz / 346204) := by
  decide

theorem test_witness_MeasureFailsBeforePulse :
    (ready (start tinyParams pinsHwErr)).seq.usReady = true ∧ (ready (start tinyParams pinsHwErr)).inputs.hwErr = true
      ∧ (ready (start { tinyParams with thermPresent := true } { pinsQuiet with temp := 0 })).seq.usReady = true
      ∧ sosMm (ready (start { tinyParams with thermPresent := true } { pinsQuiet with temp := 0 })).inputs.temp = 0 := by
  decide

/-- A measurement whose echo stays low. -/
def echoless : State := measuring (List.replicate 12 pinsQuiet)

theorem test_witness_MeasureWithoutEcho :
    echoless.presents (.measure 3) ∧ echoless.seq.usReady = true ∧ echoless.seq.outcome = .none
      ∧ echoless.soundSpeed ≠ 0
      ∧ 5 = 20 * echoless.seq.usMax.toNat * echoless.params.oscHz / echoless.soundSpeed.toNat
      ∧ echoless.time.toNat + echoless.params.trigTicks.toNat + 5 + 3 < 2 ^ 64
      ∧ echoless.runningFor (echoless.params.trigTicks.toNat + 5 + 3)
      ∧ (∀ j < echoless.params.trigTicks.toNat + 5 + 2, (echoless.pinsAt j).hwErr = false)
      ∧ (∀ j < echoless.params.trigTicks.toNat + 5 + 2, echoless.params.trigTicks.toNat < j →
          (echoless.pinsAt j).echo = false) := by decide

/-- R205 (a): the re-arm is the last of its ten ticks, its response is the absence value. -/
theorem test_measure_without_echo :
    (runOf echoless 10).resp.word = 0x0003000000000000 ∧ (runOf echoless 9).phase = .usRearm := by decide

/-- The same in strict mode. -/
def echolessStrict : State := { echoless with seq := { echoless.seq with usStrict := true } }

theorem test_witness_MeasureWithoutEcho_strict :
    echolessStrict.presents (.measure 3) ∧ echolessStrict.seq.usReady = true ∧ echolessStrict.seq.outcome = .none
      ∧ echolessStrict.soundSpeed ≠ 0 ∧ echolessStrict.runningFor 10
      ∧ (∀ j < 9, (echolessStrict.pinsAt j).hwErr = false ∧ (2 < j → (echolessStrict.pinsAt j).echo = false))
      ∧ (runOf echolessStrict 10).resp = ⟨true, 4, 0, 0, 0⟩ := by decide

/-- A measurement with an echo from tick 4 to tick 5. -/
def echoing : State :=
  measuring ([pinsQuiet, pinsQuiet, pinsQuiet, pinsEcho, pinsEcho] ++ List.replicate 4 pinsQuiet)

theorem test_witness_MeasureWithEcho :
    echoing.presents (.measure 3) ∧ echoing.seq.usReady = true ∧ echoing.seq.outcome = .none
      ∧ echoing.soundSpeed ≠ 0
      ∧ 5 = 20 * echoing.seq.usMax.toNat * echoing.params.oscHz / echoing.soundSpeed.toNat
      ∧ echoing.params.trigTicks.toNat < 4 ∧ 4 < 6 ∧ 4 ≤ echoing.params.trigTicks.toNat + 5 + 1
      ∧ echoing.params.fallDeadlineFix = false
      ∧ echoing.time.toNat + echoing.params.trigTicks.toNat + 5 + 6 + 2 < 2 ^ 64
      ∧ echoing.runningFor 8 ∧ (∀ j < 7, (echoing.pinsAt j).hwErr = false)
      ∧ (∀ j < 4, echoing.params.trigTicks.toNat < j → (echoing.pinsAt j).echo = false)
      ∧ (∀ j < 6, 4 ≤ j → (echoing.pinsAt j).echo = true) ∧ (echoing.pinsAt 6).echo = false := by decide

/-- R208: its response: 2 ticks at 100 kHz and 346204 mm/s are 0.346204 cm. -/
theorem test_measure_with_echo : (runOf echoing 8).resp = ⟨true, 0, 2, -3, 346⟩ := by decide

/-- A wait with a hardware error now. -/
def failing (ph : Phase) : State := { ready (start tinyParams pinsHwErr) with phase := ph, waitCnt := 1 }

theorem test_witness_HardwareErrorGivesAbsence :
    ∀ ph ∈ [Phase.usTrig, .usRise, .usFall], (failing ph).phase = ph ∧ (failing ph).runningFor 2
      ∧ (failing ph).inputs.hwErr = true := by decide

/-- A falling-edge wait with the echo high for nine ticks. -/
def hanging : State :=
  { ready (State.resetWith tinyParams ⟨pinsEcho, List.replicate 8 pinsEcho, 0, [], 0⟩ 0x1E) with
    phase := .usFall, time := 1 }

theorem test_witness_FallingWaitHangs :
    hanging.phase = .usFall ∧ hanging.params.fallDeadlineFix = false
      ∧ hanging.seq.pstart.toNat ≤ hanging.seq.deadline.toNat ∧ hanging.runningFor 9
      ∧ (∀ j < 9, (hanging.pinsAt j).echo = true ∧ (hanging.pinsAt j).hwErr = false) := by decide

/-- A falling-edge wait at its low sample: the timestamps of a measurement accepted at tick 0. -/
def falling : State :=
  { ready (start tinyParams pinsQuiet) with
    phase := .usFall
    time := 5
    seq := { (ready (start tinyParams pinsQuiet)).seq with
      nsig := 3, now := 0, timeout := 5, deadline := 7, pstart := 3, pend := 4, echoMode := .inp } }

theorem test_witness_FallingWaitTimeouts_default :
    TimestampInv falling ∧ falling.phase = .usFall ∧ falling.params.fallDeadlineFix = false
      ∧ step falling = .next (after falling) ∧ (after falling).phase = .usRearm :=
  ⟨by decide, by decide, by decide, step_after _ (by decide), by decide⟩

/-- With the corrected wait: a high sample one tick after the deadline, and the last one within it. -/
def fixedFalling (now : BitVec 64) : State :=
  { falling with
    params := { tinyParams with fallDeadlineFix := true }
    time := now
    env := { falling.env with pins := pinsEcho }
    seq := { falling.seq with pend := now - 1 } }

theorem test_witness_FallingWaitTimeouts_fixed :
    TimestampInv (fixedFalling 8) ∧ (fixedFalling 8).phase = .usFall ∧ (fixedFalling 8).params.fallDeadlineFix = true
      ∧ (fixedFalling 8).runningFor 2 ∧ (fixedFalling 8).inputs.echo = true ∧ (fixedFalling 8).inputs.hwErr = false
      ∧ (fixedFalling 8).seq.deadline.toNat < (fixedFalling 8).time.toNat
      ∧ ¬ (fixedFalling 7).seq.deadline.toNat < (fixedFalling 7).time.toNat
      ∧ (after (fixedFalling 7)).phase = .usFall := by decide

/-- A failing access in any phase. -/
def failingAccess (ph : Phase) : State :=
  { inPhase ph with env := { (inPhase ph).env with busDraws := [⟨1, true⟩] } }

/-- The same at a device address that no device has. -/
def wrongDevice (ph : Phase) : State := { inPhase ph with params := { tinyParams with devAddr := 0x41 } }

theorem test_witness_TransportErrorEndsCommand :
    ∀ ph ∈ [Phase.cfRead, .cfSleep, .cfPresc, .cfRestore, .cfRestart, .spW0, .spW1, .spW2, .spW3, .rgWr, .rgRd],
      (failingAccess ph).running ∧ (failingAccess ph).lastTick ph
        ∧ ((failingAccess ph).env.busDraw (failingAccess ph).accno).fail = true
        ∧ (wrongDevice ph).running ∧ (wrongDevice ph).lastTick ph
        ∧ (wrongDevice ph).params.devAddr ≠ (wrongDevice ph).params.pwmDevAddr := by decide

theorem test_witness_ReadAfterRegisterWrite :
    paramsOk tinyParams = true ∧ (Ctl.reset 0x1E).chreg.wf = true ∧ Memory.wf [(0x12, 0xC8), (0x45, 0x01)] = true := by
  decide

theorem test_witness_TickStoresOnlyAtItsAddress :
    step (writing 0x08 0x64) = .next (after (writing 0x08 0x64)) ∧ (writing 0x08 0x64).inputs.rst = false
      ∧ (writing 0x08 0x64).storeAddress ≠ some 0x09 :=
  ⟨step_after _ (by decide), by decide, by decide⟩

theorem test_witness_RestartZeroesCounters :
    ∀ b ∈ [0x80#8, 0x7F#8], (writing 0 b).running ∧ (writing 0 b).lastTick .rgWr
      ∧ (writing 0 b).drv.waddr = (writing 0 b).params.regMode ∧ (writing 0 b).busFails = false
      ∧ (writing 0 b).ctl.timingCorrupt = false := by decide

theorem test_witness_CorruptOnlyByRawPrescaleWrite :
    CtlInv (writing 0xFE 3) ∧ step (writing 0xFE 3) = .next (after (writing 0xFE 3))
      ∧ (writing 0xFE 3).ctl.timingCorrupt = false ∧ (after (writing 0xFE 3)).ctl.timingCorrupt = true :=
  ⟨by decide, step_after _ (by decide), by decide, by decide⟩

theorem test_witness_RestartZeroesCounters_step : step (writing 0 0x80) = .next (after (writing 0 0x80)) :=
  step_after _ (by decide)

/-- A corrupt controller, before a tick and before a reset. -/
def corrupt (pins : Config.Inputs) : State :=
  { start tinyParams pins with ctl := { Ctl.reset 0x1E with timingCorrupt := true } }

theorem test_witness_CorruptOnlyByRawPrescaleWrite_reset :
    CtlInv (corrupt { pinsQuiet with rst := true }) ∧ CtlInv (corrupt pinsQuiet)
      ∧ step (corrupt { pinsQuiet with rst := true }) = .next (after (corrupt { pinsQuiet with rst := true }))
      ∧ (after (corrupt { pinsQuiet with rst := true })).ctl.timingCorrupt = false
      ∧ (after (corrupt pinsQuiet)).ctl.timingCorrupt = true :=
  ⟨by decide, by decide, step_after _ (by decide), by decide, by decide⟩

/-- At and below the wrap of `PSC`. -/
theorem test_witness_DividerRule :
    (Ctl.reset 0x02).mode &&& tinyParams.sleepMask = 0 ∧ (Ctl.reset 0x02).timingCorrupt = false
      ∧ (Ctl.reset 0x02).psc = 0 ∧ (2#8 : Byte).toNat ≤ ({ Ctl.reset 0x02 with psc := 2 } : Ctl).psc.toNat := by decide

/-- A sleeping controller. -/
def asleepState : State := { start tinyParams pinsQuiet with ctl := { Ctl.reset 0x1E with mode := 0x10, psc := 5 } }

theorem test_witness_TickAdvancesDivider :
    asleepState.running ∧ step asleepState = .next (after asleepState) ∧ asleepState.ctl.timingCorrupt = false
      ∧ asleepState.storeAddress = none ∧ asleepState.ctl.mode &&& asleepState.params.sleepMask ≠ 0 :=
  ⟨by decide, step_after _ (by decide), by decide, by decide, by decide⟩

/-- Channel 3 with steps at the ends of the range, and step 0. -/
def driven : State :=
  { start tinyParams pinsQuiet with ctl := { Ctl.reset 0x1E with chreg := [(0x12, 0xFF), (0x13, 0x0F)] } }

theorem test_witness_ComparatorRule :
    3 < driven.params.nch ∧ driven.ctl.timingCorrupt = false ∧ (driven.ctl.onStep driven.params 3).toNat = 4095
      ∧ (driven.ctl.offStep driven.params 3).toNat = 0 ∧ driven.pwmOut 3 = false := by decide

/-- The other clauses: a tick that stores to a channel register, and one that restarts. -/
theorem test_witness_TickAdvancesDivider_stores :
    (writing 0x08 0x64).storeAddress ≠ none ∧ ¬ (writing 0x08 0x64).restarts
      ∧ (after (writing 0x08 0x64)).ctl.timingCorrupt = false ∧ (writing 0 0x80).restarts
      ∧ (after (writing 0 0x80)).ctl.timingCorrupt = false := by decide

theorem test_witness_HighStepsOfACycle : 4095 < 4096 ∧ 0 < 4096 := by decide

theorem test_witness_RoundingIsNearest :
    0 < (distExact 25000000 346204 1).num ∧ 0 < (distExact 25000000 346204 1).den ∧ distExact 3 5 7 = ⟨35, 60⟩ := by decide

theorem test_witness_DistanceFitsResponse :
    distSig 25000000 1 1 9 = (200000000, -17) ∧ distSig 25000000 513276 (2 ^ 64 - 1) 1 = (2, 16)
      ∧ distSig (2 ^ 32 - 1) 1 1 9 = (116415322, -19) ∧ (distSig 1 (2 ^ 32 - 1) (2 ^ 64 - 1) 1).2 = 27 := by decide

theorem test_witness_StepKeepsCtlInv :
    CtlInv (writingChannel .spW0) ∧ CtlInv { inPhase .cfPresc with ctl := { Ctl.reset 0x1E with mode := 0x10 } }
      ∧ step (writingChannel .spW0) = .next (after (writingChannel .spW0)) :=
  ⟨by decide, by decide, step_after _ (by decide)⟩

theorem test_witness_StepKeepsSequenceInv :
    SequenceInv falling ∧ step falling = .next (after falling) := ⟨by decide, step_after _ (by decide)⟩

theorem test_witness_StepKeepsPinInv :
    SequenceInv falling ∧ PinInv falling ∧ step falling = .next (after falling) :=
  ⟨by decide, by decide, step_after _ (by decide)⟩

theorem test_witness_StepKeepsTimestampInv :
    TimeInRange falling ∧ SequenceInv falling ∧ TimestampInv falling ∧ step falling = .next (after falling) :=
  ⟨by decide, by decide, by decide, step_after _ (by decide)⟩

theorem test_witness_MoveDrivesAllWheelsAlike :
    wheelHost.task = .idle ∧ wheelHost.claimed = wheelHost.cfg.pins ∧ (100#16 : BitVec 16) ≠ 0
      ∧ steeringDir .turnLeft (false || decide ((-100 : Int) < 0)) = some ⟨false, true, false, true⟩
      ∧ (Resp.mk true 0 1 0 100).rstat = 0 ∧ (Resp.mk true 0 1 0 100).rval = (100#16 : BitVec 16).setWidth 32
      ∧ ({ wheelHost with task := .programming .usrel [] } : SteeringHost 16).task = .programming .usrel []
      ∧ (Resp.mk true 3 0 0 1).rstat = 3 := by decide

/-- The clauses where BOUND answers RangeError or a duty of 0, and where the maneuver is a stop or has no row. -/
theorem test_witness_MoveDrivesAllWheelsAlike_stops :
    ((wheelHost.move 5000 .straight false).receive ⟨true, 2, 0, 0, 5000⟩).error = some (.rangeError 5000)
      ∧ ((wheelHost.move 0 .straight false).receive ⟨true, 0, 1, 0, 0⟩).command = some (.setduty 0 0)
      ∧ ((wheelHost.move 7 .emergencyBrake false).receive ⟨true, 0, 1, 0, 7⟩).command = some (.setduty 0 0)
      ∧ ((wheelHost.move 7 .maintainLane false).receive ⟨true, 0, 1, 0, 7⟩).error = some .unimplementedCapability := by
  decide

end Sys2Proof.Tests
end

section
/-! PROOFS. The statements about the scope of the model: which parameter sets a step refuses (00_scope.md R7), and what a
step does with an accepted command (R11, 10_state.md R22). -/

namespace Sys2Proof.Machine

open Sys2Proof

/-! ## The parameter check (R7) -/

/-- The channel register block as an interval of addresses (R61). -/
theorem isChannelReg_iff (p : Config.Params) (addr : Byte) :
    isChannelReg p addr = true ↔
      p.regChBase.toNat ≤ addr.toNat ∧ addr.toNat < p.regChBase.toNat + 4 * p.nch := by
  simp only [isChannelReg, Bool.and_eq_true, decide_eq_true_eq]

/-- The legal values of `SLEEP_MASK` are the bits 0 to 6. -/
theorem sleepMaskOk_iff (m : Byte) : sleepMaskOk m = true ↔ ∃ b < 7, m = BitVec.ofNat 8 (2 ^ b) := by
  constructor
  · intro h
    simp only [sleepMaskOk, List.contains_iff_mem, List.mem_cons, List.not_mem_nil, or_false] at h
    obtain h | h | h | h | h | h | h := h
    · exact ⟨0, by decide, h⟩
    · exact ⟨1, by decide, h⟩
    · exact ⟨2, by decide, h⟩
    · exact ⟨3, by decide, h⟩
    · exact ⟨4, by decide, h⟩
    · exact ⟨5, by decide, h⟩
    · exact ⟨6, by decide, h⟩
  · have bits_ok : ∀ b < 7, sleepMaskOk (BitVec.ofNat 8 (2 ^ b)) = true := by decide
    rintro ⟨b, hb, rfl⟩
    exact bits_ok b hb

/-- What a legal parameter set meets beyond the ranges of R5: the lower bounds of R7. -/
theorem ne_zero_of_paramsOk {p : Config.Params} (h : paramsOk p = true) :
    p.trigTicks ≠ 0 ∧ p.settleTicks ≠ 0 ∧ p.sosDefaultMmS ≠ 0 := by
  simp only [paramsOk, paramRangesOk, Bool.and_eq_true, decide_eq_true_eq] at h
  obtain ⟨⟨-, -, -, htrig, hsettle, hsos, -⟩, -⟩ := h
  exact ⟨htrig, hsettle, hsos⟩

/-- The register map of a legal parameter set: the constraints of R7 on addresses and on the sleep bit. -/
theorem paramMap_of_paramsOk {p : Config.Params} (h : paramsOk p = true) :
    p.regChBase.toNat + 4 * p.nch - 1 ≤ 255
      ∧ isChannelReg p p.regMode = false ∧ isChannelReg p p.regPrescale = false
      ∧ p.regMode ≠ p.regPrescale ∧ sleepMaskOk p.sleepMask = true := by
  simp only [paramsOk, paramMapOk, Bool.and_eq_true, decide_eq_true_eq] at h
  exact h.2

/-- An illegal parameter set is refused before anything else, a reset included. -/
theorem step_of_not_paramsOk {s : State} (h : ¬ paramsOk s.params = true) : step s = .refused .badParameters :=
  if_neg h

/-- Settles O8: each clause contradicts one conjunct of the parameter check. -/
theorem badParametersRefused : Obligations.BadParametersRefused := by
  intro s hbad
  refine step_of_not_paramsOk fun hok => ?_
  obtain ⟨htrig, hsettle, hsos⟩ := ne_zero_of_paramsOk hok
  obtain ⟨hfits, hmode, hpre, hdiff, hmask⟩ := paramMap_of_paramsOk hok
  obtain h | h | h | h | h | h | h | h := hbad
  · exact absurd hfits (Nat.not_le.2 h)
  · exact absurd ((isChannelReg_iff _ _).2 h) (Bool.eq_false_iff.1 hmode)
  · exact absurd ((isChannelReg_iff _ _).2 h) (Bool.eq_false_iff.1 hpre)
  · exact hdiff h
  · obtain ⟨b, hb, heq⟩ := (sleepMaskOk_iff _).1 hmask
    exact h b hb heq
  · exact hsos h
  · exact htrig h
  · exact hsettle h

/-! ## An accepted command (R22, R97) -/

/-- When the front end accepts a command (R22). -/
theorem State.accepts_iff (s : State) : s.accepts = true ↔ s.phase = .idle ∧ s.inputs.cmdValid = true := by
  simp only [State.accepts, Bool.and_eq_true, beq_iff_eq]

/-- The rule of a tick at which the host presents a legal word: the command's acceptance rule, after the latch. -/
theorem State.commandTick_of_presents {s : State} {i : Instr} (h : s.presents i) :
    s.commandTick = exec i (s.latch s.inputs.cmd) := by
  obtain ⟨hidle, hvalid, hdec⟩ := h
  simp only [State.commandTick, (s.accepts_iff).2 ⟨hidle, hvalid⟩, if_true, State.accept, hdec]

/-- The divider touches neither the phase nor the command port. -/
theorem State.presents_dividerTick {s : State} {i : Instr} : s.dividerTick.presents i ↔ s.presents i := Iff.rfl

/-- Settles O4: the rule of the tick is the command's acceptance rule, run after the divider and the latch. -/
theorem stepRunsDecodedCommand : Obligations.StepRunsDecodedCommand := by
  intro s i hrun hpres
  obtain ⟨t, ht⟩ := exec_next i (s.dividerTick.latch s.inputs.cmd)
  have htick : s.dividerTick.commandTick = .next t :=
    (State.commandTick_of_presents (State.presents_dividerTick.2 hpres)).trans ht
  exact ⟨t, ht, step_running hrun htick⟩

end Sys2Proof.Machine
end

section
/-! PROOFS. What one tick can do, said once: the outcomes of an acceptance rule, of a phase's rule and of a whole tick,
each as a relation tied to the model's function by one lemma. Every statement about all steps is a case analysis of
these relations. -/

namespace Sys2Proof.Machine

open Sys2Proof

/-! ## Acceptance (R22, R97) -/

/-- What an acceptance rule can make of the state: an answer at once, the start of a register access with new driver
operands, a new configuration of the ranging unit, or a measurement. -/
inductive Accepted (s : State) : Instr → State → Prop where
  /-- The command is answered at its acceptance; nothing but the response and the phase changes. -/
  | answer (i : Instr) (st : Status) (k : Kind) (exp : BitVec 8) (val : BitVec 32) :
      Accepted s i (s.respond st k exp val)
  /-- CFGFREQ, REGWR or REGRD starts. -/
  | access (i : Instr) (d : Drv) (ph : Phase) (hph : ph = .cfRead ∨ ph = .rgWr ∨ ph = .rgRd)
      (hfreq : d.freq = s.drv.freq) : Accepted s i (State.enterBus { s with drv := d } ph)
  /-- A command on an existing channel starts. -/
  | channel (i : Instr) (d : Drv) (ch : Nat) (hch : ch < s.params.nch) (haddr : d.waddr = chBase s.params ch)
      (hfreq : d.freq = s.drv.freq) : Accepted s i (State.enterBus { s with drv := d } .spW0)
  /-- USCFG succeeds. -/
  | configure (minCm maxCm : BitVec 16) (strict : Bool) (hmin : minCm ≠ 0) (hle : ¬ maxCm < minCm)
      (hready : s.seq.usReady = false) :
      Accepted s (.uscfg minCm maxCm strict) (State.respondDone { s with
        seq := Seq.arm s.params
          { s.seq with usMin := minCm, usMax := maxCm, usStrict := strict, usReady := true } })
  /-- USREL succeeds. -/
  | release : Accepted s .usrel
      (State.respondDone { s with seq := Seq.release { s.seq with usReady := false } })
  /-- MEASURE without a pulse. -/
  | noPulse (nsig : BitVec 8) (hready : s.seq.usReady = true) :
      Accepted s (.measure nsig) ((s.beginMeasure nsig).finishMeasure .hwErr)
  /-- MEASURE starts its pulse. -/
  | pulse (nsig : BitVec 8) (hready : s.seq.usReady = true) :
      Accepted s (.measure nsig) (s.beginMeasure nsig).startPulse

theorem Accepted.of_programChannel {s u : State} {i : Instr} {ch : BitVec 8} {off on : BitVec 16}
    (h : programChannel ch off on s = .next u) : Accepted s i u := by
  obtain ⟨hch, heq⟩ | ⟨-, heq⟩ := programChannel_cases ch off on s
  · cases heq.symm.trans h
    exact .channel i _ ch.toNat hch rfl rfl
  · cases heq.symm.trans h
    exact .answer i _ _ _ _

theorem Accepted.of_execUscfg {s u : State} {minCm maxCm : BitVec 16} {strict : Bool}
    (h : execUscfg minCm maxCm strict s = .next u) : Accepted s (.uscfg minCm maxCm strict) u := by
  unfold execUscfg at h
  split_ifs at h with hmin hlt hready
  · cases h; exact .answer ..
  · cases h; exact .answer ..
  · cases h; exact .answer ..
  · cases h; exact .configure minCm maxCm strict hmin hlt (Bool.eq_false_iff.2 hready)

theorem Accepted.of_execMeasure {s u : State} {nsig : BitVec 8} (h : execMeasure nsig s = .next u) :
    Accepted s (.measure nsig) u := by
  unfold execMeasure at h
  split_ifs at h with hready herr
  · cases h; exact .noPulse nsig hready
  · cases h; exact .pulse nsig hready
  · cases h; exact .answer ..

/-- Every acceptance rule is one of these. -/
theorem accepted_of_exec {i : Instr} {s u : State} (h : exec i s = .next u) : Accepted s i u := by
  cases i with
  | cfgfreq freq =>
    replace h : execCfgfreq freq s = .next u := h
    unfold execCfgfreq at h
    split_ifs at h
    · cases h; exact .access _ _ .cfRead (.inl rfl) rfl
    · cases h; exact .answer ..
  | bound value =>
    replace h : execBound value s = .next u := h
    unfold execBound at h
    split_ifs at h
    · cases h; exact .answer ..
    · cases h; exact .answer ..
  | setpwm ch off on => exact .of_programChannel h
  | setduty ch duty => exact .of_programChannel h
  | setservo ch pulseUs => exact .of_programChannel h
  | regwr reg byte => cases h; exact .access _ _ .rgWr (.inr (.inl rfl)) rfl
  | regrd reg => cases h; exact .access _ _ .rgRd (.inr (.inr rfl)) rfl
  | uscfg minCm maxCm strict => exact .of_execUscfg h
  | measure nsig => exact .of_execMeasure h
  | usrel =>
    replace h : execUsrel s = .next u := h
    unfold execUsrel at h
    split_ifs at h
    · cases h; exact .release
    · cases h; exact .answer ..
  | sos tempCk => cases h; exact .answer ..

/-! ## The phases (R23, R24) -/

/-- The state after a register write that is taken: it is counted, and the controller has it (R41, R65). -/
def State.stored (s : State) (addr v : Byte) : State :=
  { s.countAccess with ctl := s.ctl.poke s.params addr v }

section stored
variable (s : State) (addr v : Byte)

@[simp] theorem State.stored_params : (s.stored addr v).params = s.params := rfl
@[simp] theorem State.stored_env : (s.stored addr v).env = s.env := rfl
@[simp] theorem State.stored_time : (s.stored addr v).time = s.time := rfl
@[simp] theorem State.stored_phase : (s.stored addr v).phase = s.phase := rfl
@[simp] theorem State.stored_cmd : (s.stored addr v).cmd = s.cmd := rfl
@[simp] theorem State.stored_waitCnt : (s.stored addr v).waitCnt = s.waitCnt := rfl
@[simp] theorem State.stored_accno : (s.stored addr v).accno = s.accno + 1 := rfl
@[simp] theorem State.stored_resp : (s.stored addr v).resp = s.resp := rfl
@[simp] theorem State.stored_drv : (s.stored addr v).drv = s.drv := rfl
@[simp] theorem State.stored_ctl : (s.stored addr v).ctl = s.ctl.poke s.params addr v := rfl
@[simp] theorem State.stored_seq : (s.stored addr v).seq = s.seq := rfl

end stored

/-- The write phases that go on to another register access, and which (R126, R131). -/
def Phase.nextAccess : Phase → Option Phase
  | .cfSleep => some .cfPresc
  | .cfPresc => some .cfRestore
  | .spW0 => some .spW1
  | .spW1 => some .spW2
  | .spW2 => some .spW3
  | .idle | .cfRead | .cfRestore | .cfSettle | .cfRestart | .spW3 | .rgWr | .rgRd | .usTrig | .usRise | .usFall
  | .usRearm => none

theorem Phase.nextAccess_eq_some {ph next : Phase} (h : ph.nextAccess = some next) :
    (ph = .cfSleep ∧ next = .cfPresc) ∨ (ph = .cfPresc ∧ next = .cfRestore) ∨ (ph = .spW0 ∧ next = .spW1)
      ∨ (ph = .spW1 ∧ next = .spW2) ∨ (ph = .spW2 ∧ next = .spW3) := by
  cases ph <;> simp_all [Phase.nextAccess]

/-- What a phase of the driver can make of the state at its last tick: its access fails, or is made and the command goes
on or is answered. -/
inductive DriverRule (s : State) : State → Prop where
  /-- The access fails. -/
  | busError (hbus : s.phase.onBus = true) (hfail : s.busFails = true) :
      DriverRule s s.countAccess.transportError
  /-- `CF_READ` ends. -/
  | modeRead (hlast : s.lastTick .cfRead) :
      DriverRule s (State.enterBus
        { s.countAccess with drv := { s.drv with oldMode := s.peek s.params.regMode } } .cfSleep)
  /-- A write is taken and the next access begins. -/
  | store (next : Phase) (addr v : Byte) (hnext : s.phase.nextAccess = some next) (hok : s.busFails = false)
      (haddr : s.storeAddress = some addr) (hbyte : s.storeByte = v) :
      DriverRule s ((s.stored addr v).enterBus next)
  /-- `CF_RESTORE` ends. -/
  | restore (hlast : s.lastTick .cfRestore) (hok : s.busFails = false) :
      DriverRule s ((s.stored s.params.regMode s.drv.oldMode).enter .cfSettle s.params.settleTicks)
  /-- `CF_SETTLE` ends. -/
  | settle (hlast : s.lastTick .cfSettle) : DriverRule s (s.enterBus .cfRestart)
  /-- `CF_RESTART` ends: CFGFREQ is answered. -/
  | restart (hlast : s.lastTick .cfRestart) (hok : s.busFails = false) :
      DriverRule s (State.respondInt
        { s.stored s.params.regMode (restartMode s.drv.oldMode) with drv := { s.drv with freq := cmdFreq s.cmd } }
        (s.drv.pre.setWidth 32))
  /-- The last write of a channel command, or the write of REGWR: the command is answered. -/
  | storeLast (addr v : Byte) (hph : s.phase = .spW3 ∨ s.phase = .rgWr) (hok : s.busFails = false)
      (haddr : s.storeAddress = some addr) (hbyte : s.storeByte = v) :
      DriverRule s (s.stored addr v).respondDone
  /-- `RG_RD` ends. -/
  | byteRead (hlast : s.lastTick .rgRd) :
      DriverRule s (s.countAccess.respondInt ((s.peek s.drv.waddr).setWidth 32))

/-- The turns of a measurement. -/
inductive RangingRule (s : State) : State → Prop where
  /-- A hardware error ends the measurement (R206). -/
  | hwError (hph : s.phase = .usTrig ∨ s.phase = .usRise ∨ s.phase = .usFall) :
      RangingRule s (s.finishMeasure .hwErr)
  /-- The trigger pulse ends (R201). -/
  | pulseEnd (hlast : s.lastTick .usTrig) : RangingRule s (endPulse s)
  /-- The echo rises (R202). -/
  | echoRise (hph : s.phase = .usRise) :
      RangingRule s (State.goto { s with seq := { s.seq with pend := s.time } } .usFall)
  /-- No rise by the deadline (R202). -/
  | riseTimeout (hph : s.phase = .usRise) :
      RangingRule s (State.finishMeasure { s with seq := { s.seq with pstart := s.time } } .timeout)
  /-- No rise yet. -/
  | riseWait (hph : s.phase = .usRise) (hdead : ¬ s.seq.deadline < s.time) :
      RangingRule s { s with seq := { s.seq with pstart := s.time } }
  /-- The deadline test of the falling-edge wait (R203, R204). -/
  | fallTimeout (hph : s.phase = .usFall) :
      RangingRule s (State.finishMeasure { s with seq := { s.seq with pend := s.time } } .timeout)
  /-- No fall yet. -/
  | fallWait (hph : s.phase = .usFall) : RangingRule s { s with seq := { s.seq with pend := s.time } }
  /-- The echo falls (R203). -/
  | echoFall (hph : s.phase = .usFall) : RangingRule s (s.finishMeasure .ok)
  /-- `US_REARM` ends: MEASURE is answered (R207). -/
  | rearm (hlast : s.lastTick .usRearm) : RangingRule s (rearmAct s)

/-- What a phase's rule can make of the state at one tick. -/
inductive PhaseRule (s : State) : State → Prop where
  /-- A phase with a length counts down. -/
  | wait (hlen : s.phase.hasLength = true) (hcnt : s.waitCnt ≠ 1) :
      PhaseRule s { s with waitCnt := s.waitCnt - 1 }
  /-- A phase of the driver ends. -/
  | driver {u : State} (h : DriverRule s u) : PhaseRule s u
  /-- The measurement in flight takes a turn. -/
  | ranging {u : State} (h : RangingRule s u) : PhaseRule s u

theorem PhaseRule.of_timed {s : State} {act : State → State} (hlen : s.phase.hasLength = true)
    (hlast : s.waitCnt = 1 → PhaseRule s (act s)) : PhaseRule s (s.timed act) := by
  obtain ⟨hcnt, heq⟩ | ⟨hcnt, heq⟩ := s.timed_cases act
  · exact heq ▸ hlast hcnt
  · exact heq ▸ .wait hlen hcnt

theorem PhaseRule.of_busRead {s : State} {addr : Byte} {k : Byte → State → State} (hbus : s.phase.onBus = true)
    (hok : PhaseRule s (k (s.peek addr) s.countAccess)) : PhaseRule s (s.busRead addr k) := by
  obtain ⟨hfail, heq⟩ | ⟨-, heq⟩ := s.busRead_cases addr k
  · exact heq ▸ .driver (.busError hbus hfail)
  · exact heq ▸ hok

theorem PhaseRule.of_busWrite {s : State} {addr v : Byte} {k : State → State} (hbus : s.phase.onBus = true)
    (hok : s.busFails = false → PhaseRule s (k (s.stored addr v))) : PhaseRule s (s.busWrite addr v k) := by
  obtain ⟨hfail, heq⟩ | ⟨hsucc, heq⟩ := s.busWrite_cases addr v k
  · exact heq ▸ .driver (.busError hbus hfail)
  · exact heq ▸ hok hsucc

theorem PhaseRule.of_usTrigTick {s : State} (hp : s.phase = .usTrig) : PhaseRule s (usTrigTick s) := by
  unfold usTrigTick
  split
  · exact .ranging (.hwError (.inl hp))
  · exact .of_timed (by rw [hp]; rfl) fun hcnt => .ranging (.pulseEnd ⟨hp, hcnt⟩)

theorem PhaseRule.of_usRiseTick {s : State} (hp : s.phase = .usRise) : PhaseRule s (usRiseTick s) := by
  unfold usRiseTick
  split_ifs with herr hecho hdead
  · exact .ranging (.hwError (.inr (.inl hp)))
  · exact .ranging (.echoRise hp)
  · exact .ranging (.riseTimeout hp)
  · exact .ranging (.riseWait hp hdead)

theorem PhaseRule.of_usFallTick {s : State} (hp : s.phase = .usFall) : PhaseRule s (usFallTick s) := by
  unfold usFallTick
  split_ifs with herr hecho hdead
  · exact .ranging (.hwError (.inr (.inr hp)))
  · exact .ranging (.fallTimeout hp)
  · exact .ranging (.fallWait hp)
  · exact .ranging (.echoFall hp)

/-- A write phase that goes on to another access. -/
theorem PhaseRule.of_writeNext {s : State} {act : State → State} {next : Phase} {addr v : Byte}
    (hact : act s = s.busWrite addr v fun t => t.enterBus next) (hnext : s.phase.nextAccess = some next)
    (haddr : s.waitCnt = 1 → s.storeAddress = some addr) (hbyte : s.storeByte = v) : PhaseRule s (s.timed act) := by
  have hkind : s.phase.hasLength = true ∧ s.phase.onBus = true := by
    obtain ⟨hp, -⟩ | ⟨hp, -⟩ | ⟨hp, -⟩ | ⟨hp, -⟩ | ⟨hp, -⟩ := Phase.nextAccess_eq_some hnext <;>
      exact hp ▸ ⟨rfl, rfl⟩
  exact .of_timed hkind.1 fun hcnt => hact ▸ .of_busWrite hkind.2 fun hok =>
    .driver (.store next addr v hnext hok (haddr hcnt) hbyte)

/-- Every phase's rule is one of these. -/
theorem State.phaseTick_rule (s : State) (hbusy : s.phase ≠ .idle) : PhaseRule s s.phaseTick := by
  unfold State.phaseTick
  cases hp : s.phase with
  | idle => exact absurd hp hbusy
  | cfRead =>
    exact .of_timed (by rw [hp]; rfl) fun hcnt => .of_busRead (by rw [hp]; rfl) (.driver (.modeRead ⟨hp, hcnt⟩))
  | cfSleep =>
    exact .of_writeNext rfl (by rw [hp]; rfl) (fun hcnt => by simp [State.storeAddress, hp, hcnt])
      (by simp [State.storeByte, hp])
  | cfPresc =>
    exact .of_writeNext rfl (by rw [hp]; rfl) (fun hcnt => by simp [State.storeAddress, hp, hcnt])
      (by simp [State.storeByte, hp])
  | cfRestore =>
    exact .of_timed (by rw [hp]; rfl) fun hcnt => .of_busWrite (by rw [hp]; rfl) fun hok =>
      .driver (.restore ⟨hp, hcnt⟩ hok)
  | cfSettle => exact .of_timed (by rw [hp]; rfl) fun hcnt => .driver (.settle ⟨hp, hcnt⟩)
  | cfRestart =>
    exact .of_timed (by rw [hp]; rfl) fun hcnt => .of_busWrite (by rw [hp]; rfl) fun hok =>
      .driver (.restart ⟨hp, hcnt⟩ hok)
  | spW0 =>
    exact .of_writeNext rfl (by rw [hp]; rfl) (fun hcnt => by simp [State.storeAddress, hp, hcnt])
      (by simp [State.storeByte, hp])
  | spW1 =>
    exact .of_writeNext rfl (by rw [hp]; rfl) (fun hcnt => by simp [State.storeAddress, hp, hcnt])
      (by simp [State.storeByte, hp])
  | spW2 =>
    exact .of_writeNext rfl (by rw [hp]; rfl) (fun hcnt => by simp [State.storeAddress, hp, hcnt])
      (by simp [State.storeByte, hp])
  | spW3 =>
    exact .of_timed (by rw [hp]; rfl) fun hcnt => .of_busWrite (by rw [hp]; rfl) fun hok =>
      .driver (.storeLast _ _ (.inl hp) hok (by simp [State.storeAddress, hp, hcnt]) (by simp [State.storeByte, hp]))
  | rgWr =>
    exact .of_timed (by rw [hp]; rfl) fun hcnt => .of_busWrite (by rw [hp]; rfl) fun hok =>
      .driver (.storeLast _ _ (.inr hp) hok (by simp [State.storeAddress, hp, hcnt]) (by simp [State.storeByte, hp]))
  | rgRd =>
    exact .of_timed (by rw [hp]; rfl) fun hcnt => .of_busRead (by rw [hp]; rfl) (.driver (.byteRead ⟨hp, hcnt⟩))
  | usTrig => exact .of_usTrigTick hp
  | usRise => exact .of_usRiseTick hp
  | usFall => exact .of_usFallTick hp
  | usRearm => exact .of_timed (by rw [hp]; rfl) fun hcnt => .ranging (.rearm ⟨hp, hcnt⟩)

/-! ## The tick and the step -/

/-- What the rule of a tick without reset can make of the state. -/
inductive TickRule (s : State) : State → Prop where
  /-- The presented word is a command; its acceptance rule runs after the latch. -/
  | accept {u : State} (i : Instr) (hpres : s.presents i) (hacc : Accepted (s.latch s.inputs.cmd) i u) : TickRule s u
  /-- The presented word is illegal. -/
  | illegal (hidle : s.phase = .idle) (hvalid : s.inputs.cmdValid = true) :
      TickRule s ((s.latch s.inputs.cmd).raise .illegalCommand 0)
  /-- Nothing is in flight and nothing is presented. -/
  | quiet (hidle : s.phase = .idle) (hvalid : s.inputs.cmdValid = false) : TickRule s s
  /-- A command is in flight. -/
  | busy {u : State} (hbusy : s.phase ≠ .idle) (hrule : PhaseRule s u) : TickRule s u

theorem tickRule_of_commandTick {s u : State} (h : s.commandTick = .next u) : TickRule s u := by
  obtain ⟨hidle, hvalid, ⟨i, hdec, hexec⟩ | ⟨e, -, rfl⟩⟩ | ⟨hquiet, rfl⟩ := State.commandTick_cases h
  · exact .accept i ⟨hidle, hvalid, hdec⟩ (accepted_of_exec hexec)
  · exact .illegal hidle hvalid
  · by_cases hidle : s.phase = .idle
    · have hstay : s.phaseTick = s := by rw [State.phaseTick, hidle]
      exact hstay.symm ▸ .quiet hidle (hquiet.resolve_left (not_not.2 hidle))
    · exact .busy hidle (s.phaseTick_rule hidle)

/-- A step is a reset, or the divider, the rule of the tick and the clock edge. -/
theorem step_rule {s t : State} (h : step s = .next t) :
    paramsOk s.params = true ∧
      ((s.inputs.rst = true ∧ t = s.resetTick) ∨
        (s.inputs.rst = false ∧ ∃ u, TickRule s.dividerTick u ∧ t = u.clockEdge)) := by
  obtain ⟨hok, hreset | ⟨hrun, u, hu, ht⟩⟩ := step_cases h
  · exact ⟨hok, .inl hreset⟩
  · exact ⟨hok, .inr ⟨hrun, u, tickRule_of_commandTick hu, ht⟩⟩

end Sys2Proof.Machine
end

section
/-! PROOFS. What every tick leaves alone, the tick's own facts (10_state.md R20 to R22), and the registers that one
command alone may change (R26, R34). -/

namespace Sys2Proof.Machine

open Sys2Proof

/-! ## Frames -/

/-- `US_REARM` answers, whatever the outcome (R208). -/
theorem State.measureResult_eq_respond (s : State) :
    ∃ st k exp val, s.measureResult = s.respond st k exp val := by
  unfold State.measureResult
  split
  · exact ⟨_, _, _, _, rfl⟩
  · split
    · exact ⟨_, _, _, _, rfl⟩
    · exact ⟨_, _, _, _, rfl⟩
  · exact ⟨_, _, _, _, rfl⟩
  · exact ⟨_, _, _, _, rfl⟩

/-- `US_REARM` is a response beside the re-armed pins. -/
theorem rearmAct_eq (s : State) :
    ∃ st k exp val, rearmAct s =
      State.respond { s with seq := { Seq.arm s.params s.seq with outcome := .none } } st k exp val := by
  obtain ⟨st, k, exp, val, h⟩ := s.measureResult_eq_respond
  exact ⟨st, k, exp, val, by rw [rearmAct, h]; rfl⟩

/-- No rule of a tick writes the parameters, the environment or `TIME`: the clock edge does (R21). -/
structure SameBoard (s u : State) : Prop where
  params : u.params = s.params
  env : u.env = s.env
  time : u.time = s.time

/-- What an acceptance leaves alone: `CMD` as latched, the controller, `ACCNO` and `FREQ`. -/
structure AcceptFrame (s u : State) : Prop extends SameBoard s u where
  cmd : u.cmd = s.cmd
  ctl : u.ctl = s.ctl
  freq : u.drv.freq = s.drv.freq

theorem Accepted.frame {s u : State} {i : Instr} (h : Accepted s i u) : AcceptFrame s u := by
  cases h with
  | answer => exact ⟨⟨rfl, rfl, rfl⟩, rfl, rfl, rfl⟩
  | access i d ph hph hfreq => exact ⟨⟨rfl, rfl, rfl⟩, rfl, rfl, hfreq⟩
  | channel i d ch hch haddr hfreq => exact ⟨⟨rfl, rfl, rfl⟩, rfl, rfl, hfreq⟩
  | configure => exact ⟨⟨rfl, rfl, rfl⟩, rfl, rfl, rfl⟩
  | release => exact ⟨⟨rfl, rfl, rfl⟩, rfl, rfl, rfl⟩
  | noPulse => exact ⟨⟨rfl, rfl, rfl⟩, rfl, rfl, rfl⟩
  | pulse => exact ⟨⟨rfl, rfl, rfl⟩, rfl, rfl, rfl⟩

/-- What a phase's rule leaves alone: `CMD` and the configuration of the ranging unit. -/
structure PhaseFrame (s u : State) : Prop extends SameBoard s u where
  cmd : u.cmd = s.cmd
  usReady : u.seq.usReady = s.seq.usReady
  usMin : u.seq.usMin = s.seq.usMin
  usMax : u.seq.usMax = s.seq.usMax
  usStrict : u.seq.usStrict = s.seq.usStrict

/-- The end of the pulse, on one pin and on two (R201). -/
theorem endPulse_eq (s : State) :
    endPulse s = State.goto { s with
      seq := { s.seq with
        trigMode := if s.params.sharedPin then .inp else s.seq.trigMode
        echoMode := if s.params.sharedPin then .inp else s.seq.echoMode
        trig := false
        pstart := s.time } } .usRise := by
  cases hsh : s.params.sharedPin <;> simp [endPulse, hsh, Seq.setTrigMode, mirrorMode]

theorem DriverRule.frame {s u : State} (h : DriverRule s u) : PhaseFrame s u := by
  cases h <;> exact ⟨⟨rfl, rfl, rfl⟩, rfl, rfl, rfl, rfl, rfl⟩

theorem RangingRule.frame {s u : State} (h : RangingRule s u) : PhaseFrame s u := by
  cases h with
  | pulseEnd hlast => exact endPulse_eq s ▸ ⟨⟨rfl, rfl, rfl⟩, rfl, rfl, rfl, rfl, rfl⟩
  | rearm hlast =>
    obtain ⟨st, k, exp, val, heq⟩ := rearmAct_eq s
    exact heq ▸ ⟨⟨rfl, rfl, rfl⟩, rfl, rfl, rfl, rfl, rfl⟩
  | _ => exact ⟨⟨rfl, rfl, rfl⟩, rfl, rfl, rfl, rfl, rfl⟩

theorem PhaseRule.frame {s u : State} (h : PhaseRule s u) : PhaseFrame s u := by
  cases h with
  | wait => exact ⟨⟨rfl, rfl, rfl⟩, rfl, rfl, rfl, rfl, rfl⟩
  | driver h => exact h.frame
  | ranging h => exact h.frame

/-- A measurement leaves the driver and the controller alone (R42). -/
theorem RangingRule.driver_eq {s u : State} (h : RangingRule s u) : u.drv = s.drv ∧ u.ctl = s.ctl := by
  cases h with
  | rearm hlast =>
    obtain ⟨st, k, exp, val, heq⟩ := rearmAct_eq s
    exact heq ▸ ⟨rfl, rfl⟩
  | _ => exact ⟨rfl, rfl⟩

/-- A phase's rule leaves the controller alone, or makes the write that its phase says, and that write succeeds. -/
theorem PhaseRule.ctl_cases {s u : State} (h : PhaseRule s u) :
    u.ctl = s.ctl ∨ ∃ addr v, s.storeAddress = some addr ∧ s.storeByte = v ∧ s.busFails = false
      ∧ u.ctl = s.ctl.poke s.params addr v := by
  cases h with
  | wait => exact .inl rfl
  | ranging h => exact .inl h.driver_eq.2
  | driver h =>
    cases h with
    | store next addr v hnext hok haddr hbyte => exact .inr ⟨addr, v, haddr, hbyte, hok, rfl⟩
    | storeLast addr v hph hok haddr hbyte => exact .inr ⟨addr, v, haddr, hbyte, hok, rfl⟩
    | restore hlast hok =>
      exact .inr ⟨_, _, by simp [State.storeAddress, hlast], by simp [State.storeByte, hlast], hok, rfl⟩
    | restart hlast hok =>
      exact .inr ⟨_, _, by simp [State.storeAddress, hlast], by simp [State.storeByte, hlast], hok, rfl⟩
    | _ => exact .inl rfl

theorem TickRule.sameBoard {s u : State} (h : TickRule s u) : SameBoard s u := by
  cases h with
  | accept i hpres hacc =>
    obtain ⟨hparams, henv, htime⟩ := hacc.frame.toSameBoard
    exact ⟨hparams, henv, htime⟩
  | illegal => exact ⟨rfl, rfl, rfl⟩
  | quiet => exact ⟨rfl, rfl, rfl⟩
  | busy hbusy hrule => exact hrule.frame.toSameBoard

/-! ## Reset (R20, R310) -/

theorem step_reset {s : State} (hok : paramsOk s.params = true) (hrst : s.inputs.rst = true) :
    step s = .next s.resetTick := by
  rw [step, if_pos hok, if_pos hrst]

/-- Settles O9: the reset tick builds the state from the reset column itself. -/
theorem resetTickClearsState : Obligations.ResetTickClearsState := fun _ hok hrst =>
  ⟨_, _, step_reset hok hrst, rfl, rfl, rfl, rfl, rfl, rfl, rfl, rfl, rfl, rfl⟩

/-- Settles O59: the block is idle and the ranging unit released, so each clause is read off the reset column. -/
theorem invariantsHoldAfterReset : Obligations.InvariantsHoldAfterReset := by
  intro p e x
  refine ⟨?ctl, ?sequence, ?pins, ?timestamps⟩
  case ctl => simp [CtlInv, State.resetWith, Ctl.reset, Memory.wf]
  case sequence => simp [SequenceInv, State.resetWith, Seq.reset, Phase.hasLength, Phase.measuring]
  case pins => simp [PinInv, State.resetWith, Seq.reset, mirrorMode]
  case timestamps => simp [TimestampInv, State.resetWith]

/-! ## `TIME` (R21) -/

/-- Below the launch premise the clock edge's addition does not wrap. -/
theorem State.clockEdge_time_toNat {s : State} (h : s.time.toNat < 2 ^ 63) :
    s.clockEdge.time.toNat = s.time.toNat + 1 := by
  rw [State.clockEdge_time, BitVec.toNat_add]
  exact Nat.mod_eq_of_lt (by simpa using by omega)

/-- Settles O11: no rule of the tick writes `TIME`, and the clock edge adds one. -/
theorem timeAdvancesEveryTick : Obligations.TimeAdvancesEveryTick := by
  intro s t hrun htime hstep
  obtain ⟨-, ⟨hrst, -⟩ | ⟨-, u, hu, rfl⟩⟩ := step_rule hstep
  · exact absurd hrun.2 (by simp [hrst])
  · have hsame : u.time = s.time := hu.sameBoard.time
    rw [State.clockEdge_time_toNat (hsame ▸ htime), hsame]

/-! ## The command port of a busy block (R22) -/

/-- The state with another command on the port. -/
def State.withPort (s : State) (valid : Bool) (w : Word) : State :=
  { s with env := { s.env with pins := { s.env.pins with cmdValid := valid, cmd := w } } }

section port
variable (valid : Bool) (w : Word)

/-- A rule that neither reads nor writes the command port. -/
def IgnoresPort (act : State → State) : Prop := ∀ s, act (s.withPort valid w) = (act s).withPort valid w

variable {valid w}

theorem IgnoresPort.ite {c : State → Prop} [∀ s, Decidable (c s)] {f g : State → State}
    (hc : ∀ s : State, c (s.withPort valid w) ↔ c s) (hf : IgnoresPort valid w f) (hg : IgnoresPort valid w g) :
    IgnoresPort valid w fun s => if c s then f s else g s := by
  intro s
  by_cases h : c s
  · simp only [h, (hc s).2 h, if_true, hf s]
  · simp only [h, mt (hc s).1 h, if_false, hg s]

theorem IgnoresPort.timed {act : State → State} (h : IgnoresPort valid w act) :
    IgnoresPort valid w fun s => s.timed act :=
  .ite (c := fun s => s.waitCnt = 1) (fun _ => Iff.rfl) h fun _ => rfl

theorem IgnoresPort.busRead {addr : State → Byte} {k : Byte → State → State}
    (haddr : ∀ s : State, addr (s.withPort valid w) = addr s) (h : ∀ v, IgnoresPort valid w (k v)) :
    IgnoresPort valid w fun s => s.busRead (addr s) k :=
  .ite (c := fun s => s.busFails = true) (fun _ => Iff.rfl) (fun _ => rfl) fun s => by
    rw [haddr]; exact h _ s.countAccess

theorem IgnoresPort.busWrite {addr v : State → Byte} {k : State → State}
    (haddr : ∀ s : State, addr (s.withPort valid w) = addr s) (hv : ∀ s : State, v (s.withPort valid w) = v s)
    (h : IgnoresPort valid w k) : IgnoresPort valid w fun s => s.busWrite (addr s) (v s) k :=
  .ite (c := fun s => s.busFails = true) (fun _ => Iff.rfl) (fun _ => rfl) fun s => by
    rw [haddr, hv]; exact h (s.stored (addr s) (v s))

theorem usTrigTick_ignoresPort : IgnoresPort valid w usTrigTick :=
  .ite (c := fun s => s.inputs.hwErr = true) (fun _ => Iff.rfl) (fun _ => rfl) (.timed fun _ => rfl)

theorem usRiseTick_ignoresPort : IgnoresPort valid w usRiseTick :=
  .ite (c := fun s => s.inputs.hwErr = true) (fun _ => Iff.rfl) (fun _ => rfl) <|
    .ite (c := fun s => s.inputs.echo = true) (fun _ => Iff.rfl) (fun _ => rfl) <|
      .ite (c := fun s => s.seq.deadline < s.time) (fun _ => Iff.rfl) (fun _ => rfl) fun _ => rfl

theorem usFallTick_ignoresPort : IgnoresPort valid w usFallTick :=
  .ite (c := fun s => s.inputs.hwErr = true) (fun _ => Iff.rfl) (fun _ => rfl) <|
    .ite (c := fun s => s.inputs.echo = true) (fun _ => Iff.rfl)
      (.ite (c := fun s => s.fallDeadlinePassed = true) (fun _ => Iff.rfl) (fun _ => rfl) fun _ => rfl) fun _ => rfl

theorem rearmAct_ignoresPort : IgnoresPort valid w rearmAct := by
  intro s
  have hres : (s.withPort valid w).measureResult = s.measureResult.withPort valid w := by
    have hseq : (s.withPort valid w).seq = s.seq := rfl
    unfold State.measureResult
    rw [hseq]
    cases s.seq.outcome with
    | timeout => cases s.seq.usStrict <;> rfl
    | _ => rfl
  rw [rearmAct, hres]
  rfl

theorem phaseTick_ignoresPort : IgnoresPort valid w State.phaseTick := by
  intro s
  have hphase : (s.withPort valid w).phase = s.phase := rfl
  unfold State.phaseTick
  rw [hphase]
  cases s.phase with
  | idle => rfl
  | cfRead => exact IgnoresPort.timed (.busRead (fun _ => rfl) fun _ _ => rfl) s
  | cfSleep => exact IgnoresPort.timed (.busWrite (fun _ => rfl) (fun _ => rfl) fun _ => rfl) s
  | cfPresc => exact IgnoresPort.timed (.busWrite (fun _ => rfl) (fun _ => rfl) fun _ => rfl) s
  | cfRestore => exact IgnoresPort.timed (.busWrite (fun _ => rfl) (fun _ => rfl) fun _ => rfl) s
  | cfSettle => exact IgnoresPort.timed (fun _ => rfl) s
  | cfRestart => exact IgnoresPort.timed (.busWrite (fun _ => rfl) (fun _ => rfl) fun _ => rfl) s
  | spW0 => exact IgnoresPort.timed (.busWrite (fun _ => rfl) (fun _ => rfl) fun _ => rfl) s
  | spW1 => exact IgnoresPort.timed (.busWrite (fun _ => rfl) (fun _ => rfl) fun _ => rfl) s
  | spW2 => exact IgnoresPort.timed (.busWrite (fun _ => rfl) (fun _ => rfl) fun _ => rfl) s
  | spW3 => exact IgnoresPort.timed (.busWrite (fun _ => rfl) (fun _ => rfl) fun _ => rfl) s
  | rgWr => exact IgnoresPort.timed (.busWrite (fun _ => rfl) (fun _ => rfl) fun _ => rfl) s
  | rgRd => exact IgnoresPort.timed (.busRead (fun _ => rfl) fun _ _ => rfl) s
  | usTrig => exact usTrigTick_ignoresPort s
  | usRise => exact usRiseTick_ignoresPort s
  | usFall => exact usFallTick_ignoresPort s
  | usRearm => exact IgnoresPort.timed rearmAct_ignoresPort s

end port

/-- The environment's next tick does not depend on what was on the port. -/
theorem State.clockEdge_withPort (s : State) (valid : Bool) (w : Word) :
    (s.withPort valid w).clockEdge = s.clockEdge := by
  cases hscript : s.env.script <;> simp [State.clockEdge, State.withPort, Env.advance, hscript]

theorem State.resetTick_withPort (s : State) (valid : Bool) (w : Word) :
    (s.withPort valid w).resetTick = s.resetTick := by
  cases hscript : s.env.script <;>
    simp [State.resetTick, State.withPort, Env.afterReset, Env.advance, hscript]

/-- Settles O6: in flight, no rule reads the port, and the clock edge and a reset overwrite it. -/
theorem busyBlockTakesNoCommand : Obligations.BusyBlockTakesNoCommand := by
  intro s valid w hbusy
  change step (s.withPort valid w) = step s
  by_cases hok : paramsOk s.params = true
  · cases hrst : s.inputs.rst with
    | true =>
      rw [step_reset (s := s.withPort valid w) hok hrst, step_reset hok hrst, State.resetTick_withPort]
    | false =>
      have hsame : (s.withPort valid w).dividerTick.phaseTick = s.dividerTick.phaseTick.withPort valid w :=
        phaseTick_ignoresPort s.dividerTick
      rw [step_busy (s := s.withPort valid w) ⟨hok, hrst⟩ hbusy, step_busy ⟨hok, hrst⟩ hbusy, hsame,
        State.clockEdge_withPort]
  · rw [step_of_not_paramsOk (s := s.withPort valid w) hok, step_of_not_paramsOk hok]

/-! ## CFGFREQ's acceptance (R125) -/

theorem execCfgfreq_fits {s : State} {freq : BitVec 16} (hlo : 0 ≤ presc s.params.oscHz freq.toNat)
    (hhi : presc s.params.oscHz freq.toNat ≤ 255) :
    execCfgfreq freq s = .next (State.enterBus
      { s with drv := { s.drv with pre := BitVec.ofInt 8 (presc s.params.oscHz freq.toNat) } } .cfRead) :=
  if_pos (by simp [prescFits, hlo, hhi])

/-- Settles O14: the prescale fits, and entering the mode read sets the phase and its latency. -/
theorem cfgfreqAccepted : Obligations.CfgfreqAccepted := fun _ _ hlo hhi => execCfgfreq_fits hlo hhi

/-! ## Registers that one command alone changes -/

/-- Settles O17: of all rules only the successful restart write of CFGFREQ writes `FREQ`. -/
theorem freqChangesOnlyByCfgfreq : Obligations.FreqChangesOnlyByCfgfreq := by
  intro s t hstep hne
  obtain ⟨-, ⟨hrst, -⟩ | ⟨-, u, hu, rfl⟩⟩ := step_rule hstep
  · exact .inl hrst
  · cases hu with
    | accept i hpres hacc => exact absurd hacc.frame.freq hne
    | illegal => exact absurd rfl hne
    | quiet => exact absurd rfl hne
    | busy hbusy hrule =>
      cases hrule with
      | wait => exact absurd rfl hne
      | ranging h => exact absurd (congrArg Drv.freq h.driver_eq.1) hne
      | driver h =>
        cases h with
        | restart hlast hok => exact .inr ⟨hlast, hok, rfl⟩
        | _ => exact absurd rfl hne

/-- What an acceptance does to the configuration of the ranging unit: USCFG sets it, USREL takes `US_READY` back, and
every other command leaves it alone (R34, R42). -/
theorem Accepted.config_cases {s u : State} {i : Instr} (h : Accepted s i u) :
    (∃ minCm maxCm strict, i = .uscfg minCm maxCm strict ∧ u.seq.usReady = true ∧ u.seq.usMin = minCm
        ∧ u.seq.usMax = maxCm ∧ u.seq.usStrict = strict) ∨
      ((i = .usrel ∧ u.seq.usReady = false ∨ u.seq.usReady = s.seq.usReady)
        ∧ u.seq.usMin = s.seq.usMin ∧ u.seq.usMax = s.seq.usMax ∧ u.seq.usStrict = s.seq.usStrict) := by
  cases h with
  | configure minCm maxCm strict => exact .inl ⟨minCm, maxCm, strict, rfl, rfl, rfl, rfl, rfl⟩
  | release => exact .inr ⟨.inl ⟨rfl, rfl⟩, rfl, rfl, rfl⟩
  | _ => exact .inr ⟨.inr rfl, rfl, rfl, rfl⟩

/-- Settles O31: only an accepted USCFG or USREL touches the configuration, and no phase does. -/
theorem readinessChangesOnlyByItsCommands : Obligations.ReadinessChangesOnlyByItsCommands := by
  intro s t hstep
  obtain ⟨-, ⟨hrst, -⟩ | ⟨-, u, hu, rfl⟩⟩ := step_rule hstep
  · exact ⟨fun _ => .inl hrst, fun _ => .inl hrst⟩
  · cases hu with
    | accept i hpres hacc =>
      obtain ⟨minCm, maxCm, strict, rfl, hready, hconf⟩ | ⟨hready, hmin, hmax, hstrict⟩ := hacc.config_cases
      · exact ⟨fun _ => .inr (.inr ⟨minCm, maxCm, strict, hpres, hready⟩),
          fun _ => .inr ⟨minCm, maxCm, strict, hpres, hconf⟩⟩
      · refine ⟨fun hne => ?_, fun hne => ?_⟩
        · obtain ⟨rfl, hfalse⟩ | hsame := hready
          · exact .inr (.inl ⟨hpres, hfalse⟩)
          · exact absurd hsame hne
        · obtain hne | hne | hne := hne
          · exact absurd hmin hne
          · exact absurd hmax hne
          · exact absurd hstrict hne
    | illegal => exact ⟨fun hne => absurd rfl hne, by rintro (hne | hne | hne) <;> exact absurd rfl hne⟩
    | quiet => exact ⟨fun hne => absurd rfl hne, by rintro (hne | hne | hne) <;> exact absurd rfl hne⟩
    | busy hbusy hrule =>
      have hframe := hrule.frame
      refine ⟨fun hne => absurd hframe.usReady hne, ?_⟩
      rintro (hne | hne | hne)
      · exact absurd hframe.usMin hne
      · exact absurd hframe.usMax hne
      · exact absurd hframe.usStrict hne

end Sys2Proof.Machine
end

section
/-! PROOFS. The controller (20_memory.md R61 to R72, 41_frequency_divider.md R161 to R163): what a register write changes,
its invariant, which register address a tick may change, and who may corrupt the timing. -/

namespace Sys2Proof.Machine

open Sys2Proof

/-! ## Register writes -/

/-- A register write changes no other register address (R68 to R70). -/
theorem Ctl.peek_poke_other {p : Config.Params} {c : Ctl} {addr a : Byte} (v : Byte) (h : a ≠ addr) :
    (c.poke p addr v).peek p a = c.peek p a := by
  obtain ⟨rfl, heq⟩ | ⟨-, rfl, heq⟩ | ⟨-, -, -, heq⟩ | ⟨-, -, -, heq⟩ := Ctl.poke_cases p c addr v
  · simp [Ctl.peek, heq, h]
  · simp [Ctl.peek, heq, h]
  · have hnat : a.toNat ≠ addr.toNat := fun hn => h (BitVec.eq_of_toNat_eq hn)
    simp [Ctl.peek, heq, Ctl.writeChannel, Memory.read_write_other hnat]
  · rw [heq]

@[simp] theorem Ctl.peek_tick (p : Config.Params) (c : Ctl) (a : Byte) : (c.tick p).peek p a = c.peek p a := by
  simp [Ctl.peek]

@[simp] theorem Ctl.peek_drawIfCorrupt (p : Config.Params) (c : Ctl) (n : Nat) (a : Byte) :
    (c.drawIfCorrupt n).peek p a = c.peek p a := by
  simp [Ctl.peek]

/-- Only a write to the prescale register while the oscillator runs corrupts the timing; no write mends it (R163). -/
theorem Ctl.poke_timingCorrupt_cases (p : Config.Params) (c : Ctl) (addr v : Byte) :
    (c.poke p addr v).timingCorrupt = c.timingCorrupt ∨
      (addr = p.regPrescale ∧ c.asleep p = false ∧ (c.poke p addr v).timingCorrupt = true) := by
  obtain ⟨-, heq⟩ | ⟨-, haddr, heq⟩ | ⟨-, -, -, heq⟩ | ⟨-, -, -, heq⟩ := Ctl.poke_cases p c addr v
  · exact .inl (by simp [heq])
  · cases hsleep : c.asleep p with
    | true => exact .inl (by simp [heq, Ctl.writePrescale, hsleep])
    | false => exact .inr ⟨haddr, rfl, by simp [heq, Ctl.writePrescale, hsleep]⟩
  · exact .inl (by rw [heq]; rfl)
  · exact .inl (by rw [heq])

theorem Ctl.asleep_eq_false_iff {p : Config.Params} {c : Ctl} : c.asleep p = false ↔ c.mode &&& p.sleepMask = 0 := by
  simp [Ctl.asleep, sleepBit]

/-- Writing the sleep mode to `REG_MODE` stops the oscillator: the sleep bit is not the restart bit (R7, R126). -/
theorem sleepBit_storedMode_sleepMode {p : Config.Params} (hmask : sleepMaskOk p.sleepMask = true) (oldMode : Byte) :
    sleepBit p (storedMode (sleepMode p oldMode)) = true := by
  have hall : ∀ b < 7, ∀ m : Byte,
      ((m ||| BitVec.ofNat 8 (2 ^ b)) &&& 0x7F#8) &&& BitVec.ofNat 8 (2 ^ b) ≠ 0#8 := by decide
  obtain ⟨b, hb, heq⟩ := (sleepMaskOk_iff _).1 hmask
  simpa [sleepBit, storedMode, sleepMode, heq] using hall b hb oldMode

theorem sleepMaskOk_of_paramsOk {p : Config.Params} (hok : paramsOk p = true) : sleepMaskOk p.sleepMask = true := by
  obtain ⟨-, -, -, -, hmask⟩ := paramMap_of_paramsOk hok
  exact hmask

/-! ## The addresses of a channel command (R122, R130) -/

/-- The four addresses from `a` on are channel registers. -/
def ChannelWrites (p : Config.Params) (a : Byte) : Prop :=
  isChannelReg p a = true ∧ isChannelReg p (a + 1) = true ∧ isChannelReg p (a + 2) = true
    ∧ isChannelReg p (a + 3) = true

/-- The addresses of an existing channel do not wrap (R7). -/
theorem chBase_add_toNat {p : Config.Params} {ch k : Nat} (hok : paramsOk p = true) (hch : ch < p.nch) (hk : k < 4) :
    (chBase p ch + BitVec.ofNat 8 k).toNat = p.regChBase.toNat + 4 * ch + k := by
  have hfits := (paramMap_of_paramsOk hok).1
  rw [chBase, ← BitVec.ofNat_add, BitVec.toNat_ofNat, Nat.mod_eq_of_lt]
  omega

theorem isChannelReg_chBase_add {p : Config.Params} {ch k : Nat} (hok : paramsOk p = true) (hch : ch < p.nch)
    (hk : k < 4) : isChannelReg p (chBase p ch + BitVec.ofNat 8 k) = true := by
  rw [isChannelReg_iff, chBase_add_toNat hok hch hk]
  omega

theorem channelWrites_chBase {p : Config.Params} {ch : Nat} (hok : paramsOk p = true) (hch : ch < p.nch) :
    ChannelWrites p (chBase p ch) := by
  refine ⟨?_, isChannelReg_chBase_add hok hch (k := 1) (by decide),
    isChannelReg_chBase_add hok hch (k := 2) (by decide), isChannelReg_chBase_add hok hch (k := 3) (by decide)⟩
  simpa using isChannelReg_chBase_add hok hch (k := 0) (by decide)

/-! ## The controller's invariant -/

/-- The part of `CtlInv` that is about the controller alone. -/
def Ctl.Sound (p : Config.Params) (c : Ctl) : Prop :=
  c.mode.getLsbD 7 = false ∧ c.chreg.wf = true ∧ ∀ cell ∈ c.chreg, isChannelReg p (BitVec.ofNat 8 cell.1) = true

/-- The phases of a channel command. -/
def Phase.programs (ph : Phase) : Prop := ph = .spW0 ∨ ph = .spW1 ∨ ph = .spW2 ∨ ph = .spW3

theorem ctlInv_iff {s : State} : CtlInv s ↔ s.ctl.Sound s.params
    ∧ (s.phase = .cfPresc → s.ctl.asleep s.params = true)
    ∧ (s.phase.programs → ChannelWrites s.params s.drv.waddr) :=
  ⟨fun ⟨hmode, hwf, hlist, hrest⟩ => ⟨⟨hmode, hwf, hlist⟩, hrest⟩,
    fun ⟨⟨hmode, hwf, hlist⟩, hrest⟩ => ⟨hmode, hwf, hlist, hrest⟩⟩

/-- Every register write keeps the controller sound, whatever its address. -/
theorem Ctl.Sound.poke {p : Config.Params} {c : Ctl} (h : c.Sound p) (addr v : Byte) : (c.poke p addr v).Sound p := by
  obtain ⟨hmode, hwf, hlist⟩ := h
  obtain ⟨-, heq⟩ | ⟨-, -, heq⟩ | ⟨-, -, hch, heq⟩ | ⟨-, -, -, heq⟩ := Ctl.poke_cases p c addr v
  · rw [heq]
    exact ⟨by simpa using storedMode_high v, by simpa using hwf, by simpa using hlist⟩
  · rw [heq]
    exact ⟨by simpa using hmode, by simpa using hwf, by simpa using hlist⟩
  · rw [heq]
    refine ⟨hmode, Memory.wf_write hwf addr.isLt, fun cell hcell => ?_⟩
    obtain hnew | hold := Memory.mem_write hcell
    · simpa [hnew] using hch
    · exact hlist cell hold
  · rw [heq]
    exact ⟨hmode, hwf, hlist⟩

/-- The divider keeps the invariant: it moves the counters alone. -/
theorem CtlInv.dividerTick {s : State} (h : CtlInv s) : CtlInv s.dividerTick := by
  simpa [CtlInv] using h

/-- The clock edge keeps the invariant: of the controller it draws the counters alone. -/
theorem CtlInv.clockEdge {s : State} (h : CtlInv s) : CtlInv s.clockEdge := by
  simpa [CtlInv, Ctl.asleep] using h

/-- The phases in which `CtlInv` asks for more than a sound controller. -/
def Phase.constrained : Phase → Bool
  | .cfPresc | .spW0 | .spW1 | .spW2 | .spW3 => true
  | .idle | .cfRead | .cfSleep | .cfRestore | .cfSettle | .cfRestart | .rgWr | .rgRd | .usTrig | .usRise | .usFall
  | .usRearm => false

/-- In every other phase the controller alone has to be sound. -/
theorem ctlInv_of_unconstrained {s : State} (hctl : s.ctl.Sound s.params) (hfree : s.phase.constrained = false) :
    CtlInv s := by
  refine ctlInv_iff.2 ⟨hctl, fun hp => ?_, fun hp => ?_⟩
  · rw [hp] at hfree
    cases hfree
  · rcases hp with hp | hp | hp | hp <;> rw [hp] at hfree <;> cases hfree

theorem Accepted.keeps_ctlInv {s u : State} {i : Instr} (hok : paramsOk s.params = true) (hinv : CtlInv s)
    (h : Accepted s i u) : CtlInv u := by
  have hctl := (ctlInv_iff.1 hinv).1
  cases h with
  | access i d ph hph hfreq =>
    have hfree : ph.constrained = false := by rcases hph with rfl | rfl | rfl <;> rfl
    exact ctlInv_of_unconstrained hctl hfree
  | channel i d ch hch haddr hfreq =>
    refine ctlInv_iff.2 ⟨hctl, fun hp => Phase.noConfusion hp, fun _ => ?_⟩
    show ChannelWrites s.params d.waddr
    exact haddr ▸ channelWrites_chBase hok hch
  | _ => exact ctlInv_of_unconstrained hctl rfl

/-- A taken write that goes on to another access: the sleep write stops the oscillator for the prescale write, and a
channel command keeps its addresses. -/
theorem ctlInv_of_store {s : State} {next : Phase} {addr v : Byte} (hok : paramsOk s.params = true)
    (hinv : CtlInv s) (hnext : s.phase.nextAccess = some next) (haddr : s.storeAddress = some addr)
    (hbyte : s.storeByte = v) : CtlInv ((s.stored addr v).enterBus next) := by
  obtain ⟨hctl, -, hprog⟩ := ctlInv_iff.1 hinv
  have hctl' : (s.ctl.poke s.params addr v).Sound s.params := hctl.poke addr v
  have hchannel (hp : s.phase.programs) (hp' : next ≠ .cfPresc) : CtlInv ((s.stored addr v).enterBus next) :=
    ctlInv_iff.2 ⟨hctl', fun h => absurd h hp', fun _ => hprog hp⟩
  obtain ⟨hp, rfl⟩ | ⟨hp, rfl⟩ | ⟨hp, rfl⟩ | ⟨hp, rfl⟩ | ⟨hp, rfl⟩ := Phase.nextAccess_eq_some hnext
  · refine ctlInv_iff.2 ⟨hctl', fun _ => ?_, by simp [Phase.programs]⟩
    obtain ⟨-, rfl⟩ : s.waitCnt = 1 ∧ s.params.regMode = addr := by simpa [State.storeAddress, hp] using haddr
    obtain rfl : sleepMode s.params s.drv.oldMode = v := by simpa [State.storeByte, hp] using hbyte
    simpa [Ctl.asleep, Ctl.poke] using
      sleepBit_storedMode_sleepMode (sleepMaskOk_of_paramsOk hok) s.drv.oldMode
  · exact ctlInv_of_unconstrained hctl' rfl
  · exact hchannel (.inl hp) (by decide)
  · exact hchannel (.inr (.inl hp)) (by decide)
  · exact hchannel (.inr (.inr (.inl hp))) (by decide)

theorem DriverRule.keeps_ctlInv {s u : State} (hok : paramsOk s.params = true) (hinv : CtlInv s)
    (h : DriverRule s u) : CtlInv u := by
  have hctl := (ctlInv_iff.1 hinv).1
  cases h with
  | store next addr v hnext _ haddr hbyte => exact ctlInv_of_store hok hinv hnext haddr hbyte
  | restore => exact ctlInv_of_unconstrained (hctl.poke _ _) rfl
  | restart => exact ctlInv_of_unconstrained (hctl.poke _ _) rfl
  | storeLast addr v => exact ctlInv_of_unconstrained (hctl.poke addr v) rfl
  | _ => exact ctlInv_of_unconstrained hctl rfl

/-- A measurement never goes on to a phase of the driver. -/
theorem RangingRule.phase_unconstrained {s u : State} (h : RangingRule s u) : u.phase.constrained = false := by
  cases h with
  | riseWait hph hdead => exact hph ▸ rfl
  | fallWait hph => exact hph ▸ rfl
  | rearm =>
    obtain ⟨st, k, exp, val, heq⟩ := rearmAct_eq s
    exact heq ▸ rfl
  | _ => rfl

theorem PhaseRule.keeps_ctlInv {s u : State} (hok : paramsOk s.params = true) (hinv : CtlInv s)
    (h : PhaseRule s u) : CtlInv u := by
  cases h with
  | wait => exact hinv
  | driver h => exact h.keeps_ctlInv hok hinv
  | ranging h =>
    refine ctlInv_of_unconstrained ?_ h.phase_unconstrained
    rw [h.driver_eq.2, h.frame.params]
    exact (ctlInv_iff.1 hinv).1

theorem TickRule.keeps_ctlInv {s u : State} (hok : paramsOk s.params = true) (hinv : CtlInv s)
    (h : TickRule s u) : CtlInv u := by
  cases h with
  | accept i hpres hacc => exact hacc.keeps_ctlInv (s := s.latch s.inputs.cmd) hok hinv
  | illegal => exact ctlInv_of_unconstrained (ctlInv_iff.1 hinv).1 rfl
  | quiet => exact hinv
  | busy hbusy hrule => exact hrule.keeps_ctlInv hok hinv

/-- Settles O55: a reset establishes the invariant, and the divider, every rule of a tick and the clock edge keep it. -/
theorem stepKeepsCtlInv : Obligations.StepKeepsCtlInv := by
  intro s t hinv hstep
  obtain ⟨hok, ⟨-, rfl⟩ | ⟨-, u, hu, rfl⟩⟩ := step_rule hstep
  · exact (invariantsHoldAfterReset _ _ _).1
  · exact (hu.keeps_ctlInv (s := s.dividerTick) hok hinv.dividerTick).clockEdge

/-! ## What a tick stores, latches and answers -/

/-- The register addresses that no write of this tick names read as before. -/
theorem TickRule.peek_eq {s u : State} {a : Byte} (h : TickRule s u) (ha : s.storeAddress ≠ some a) :
    u.peek a = s.peek a := by
  have hparams : u.params = s.params := h.sameBoard.params
  unfold State.peek
  rw [hparams]
  cases h with
  | accept i hpres hacc => rw [hacc.frame.ctl, State.latch_ctl]
  | illegal => rfl
  | quiet => rfl
  | busy hbusy hrule =>
    obtain heq | ⟨addr, v, haddr, -, -, heq⟩ := hrule.ctl_cases
    · rw [heq]
    · rw [heq]
      exact Ctl.peek_poke_other v fun hne => ha (hne ▸ haddr)

theorem TickRule.cmd_eq {s u : State} (h : TickRule s u) :
    u.cmd = if s.phase = .idle ∧ s.inputs.cmdValid = true then s.inputs.cmd else s.cmd := by
  cases h with
  | accept i hpres hacc => rw [if_pos ⟨hpres.1, hpres.2.1⟩, hacc.frame.cmd, State.latch_cmd]
  | illegal hidle hvalid => exact (if_pos ⟨hidle, hvalid⟩).symm
  | quiet hidle hvalid => exact (if_neg (by simp [hvalid])).symm
  | busy hbusy hrule => rw [if_neg fun h => hbusy h.1, hrule.frame.cmd]

/-- An acceptance answers or leaves the response as the latch left it (R22, R25). -/
theorem Accepted.resp_cases {s u : State} {i : Instr} (h : Accepted s i u) :
    (u.phase = .idle ∧ u.resp.valid = true) ∨ (u.phase ≠ .idle ∧ u.resp = s.resp) := by
  cases h with
  | answer => exact .inl ⟨rfl, rfl⟩
  | access i d ph hph hfreq => exact .inr ⟨by rcases hph with rfl | rfl | rfl <;> simp, rfl⟩
  | channel => exact .inr ⟨by simp, rfl⟩
  | configure => exact .inl ⟨rfl, rfl⟩
  | release => exact .inl ⟨rfl, rfl⟩
  | noPulse => exact .inr ⟨by simp, rfl⟩
  | pulse => exact .inr ⟨by simp, rfl⟩

theorem DriverRule.resp_cases {s u : State} (h : DriverRule s u) :
    (u.phase = .idle ∧ u.resp.valid = true) ∨ (u.phase ≠ .idle ∧ u.resp = s.resp) := by
  cases h with
  | busError => exact .inl ⟨rfl, rfl⟩
  | modeRead => exact .inr ⟨by simp, rfl⟩
  | store next addr v hnext =>
    obtain ⟨-, rfl⟩ | ⟨-, rfl⟩ | ⟨-, rfl⟩ | ⟨-, rfl⟩ | ⟨-, rfl⟩ := Phase.nextAccess_eq_some hnext <;>
      exact .inr ⟨by simp, rfl⟩
  | restore => exact .inr ⟨by simp, rfl⟩
  | settle => exact .inr ⟨by simp, rfl⟩
  | restart => exact .inl ⟨rfl, rfl⟩
  | storeLast => exact .inl ⟨rfl, rfl⟩
  | byteRead => exact .inl ⟨rfl, rfl⟩

theorem RangingRule.resp_cases {s u : State} (h : RangingRule s u) :
    (u.phase = .idle ∧ u.resp.valid = true) ∨ (u.phase ≠ .idle ∧ u.resp = s.resp) := by
  cases h with
  | riseWait hph hdead => exact .inr ⟨by simp [hph], rfl⟩
  | fallWait hph => exact .inr ⟨by simp [hph], rfl⟩
  | pulseEnd => exact .inr ⟨by simp [endPulse], rfl⟩
  | rearm =>
    obtain ⟨st, k, exp, val, heq⟩ := rearmAct_eq s
    exact .inl (heq ▸ ⟨rfl, rfl⟩)
  | _ => exact .inr ⟨by simp, rfl⟩

/-- A phase's rule answers or leaves the response alone (R25). -/
theorem PhaseRule.resp_cases {s u : State} (h : PhaseRule s u) (hbusy : s.phase ≠ .idle) :
    (u.phase = .idle ∧ u.resp.valid = true) ∨ (u.phase ≠ .idle ∧ u.resp = s.resp) := by
  cases h with
  | wait => exact .inr ⟨hbusy, rfl⟩
  | driver h => exact h.resp_cases
  | ranging h => exact h.resp_cases

/-- The response over one tick: it holds while nothing is presented, is cleared by an acceptance that does not answer,
holds while the command goes on, and is set by an answer. -/
theorem TickRule.resp_cases {s u : State} (h : TickRule s u) :
    (s.phase = .idle ∧ s.inputs.cmdValid = false ∧ u.phase = .idle ∧ u.resp = s.resp) ∨
      ((s.phase ≠ .idle ∨ s.inputs.cmdValid = true) ∧ u.phase = .idle ∧ u.resp.valid = true) ∨
      (s.phase = .idle ∧ s.inputs.cmdValid = true ∧ u.phase ≠ .idle ∧ u.resp = { s.resp with valid := false }) ∨
      (s.phase ≠ .idle ∧ u.phase ≠ .idle ∧ u.resp = s.resp) := by
  cases h with
  | accept i hpres hacc =>
    obtain ⟨hidle, hvalid, -⟩ := hpres
    obtain ⟨hphase, hresp⟩ | ⟨hphase, hresp⟩ := hacc.resp_cases
    · exact .inr (.inl ⟨.inr hvalid, hphase, hresp⟩)
    · exact .inr (.inr (.inl ⟨hidle, hvalid, hphase, hresp⟩))
  | illegal hidle hvalid => exact .inr (.inl ⟨.inr hvalid, rfl, rfl⟩)
  | quiet hidle hvalid => exact .inl ⟨hidle, hvalid, hidle, rfl⟩
  | busy hbusy hrule =>
    obtain ⟨hphase, hresp⟩ | ⟨hphase, hresp⟩ := hrule.resp_cases hbusy
    · exact .inr (.inl ⟨.inl hbusy, hphase, hresp⟩)
    · exact .inr (.inr (.inr ⟨hbusy, hphase, hresp⟩))

@[simp] theorem State.dividerTick_inputs (s : State) : s.dividerTick.inputs = s.inputs := rfl

/-- Settles O46: the tick's own write, the latch and the answer are the only ones of their kind. -/
theorem tickStoresOnlyAtItsAddress : Obligations.TickStoresOnlyAtItsAddress := by
  intro s t hstep hrst
  obtain ⟨-, ⟨hrst', -⟩ | ⟨-, u, hu, rfl⟩⟩ := step_rule hstep
  · exact absurd hrst' (by simp [hrst])
  refine ⟨fun a ha => ?peek, hu.cmd_eq, ?resp⟩
  case peek => simpa [State.peek] using hu.peek_eq (a := a) ha
  case resp =>
    have hcases := hu.resp_cases
    simp only [State.dividerTick_phase, State.dividerTick_inputs, State.dividerTick_resp] at hcases
    simp only [State.clockEdge_phase, State.clockEdge_resp]
    obtain ⟨hp, hv, hq, hr⟩ | ⟨hp, hq, hr⟩ | ⟨hp, hv, hq, hr⟩ | ⟨hp, hq, hr⟩ := hcases
    · simp [hp, hv, hq, hr]
    · obtain hp | hv := hp <;> simp_all
    · simp [hp, hv, hq, hr]
    · simp [hp, hq, hr]

/-! ## The corrupt timing (R32, R163) -/

/-- Under the invariant the only store to the prescale register while the oscillator runs is REGWR's. -/
theorem store_prescale_awake {s : State} (hok : paramsOk s.params = true) (hinv : CtlInv s)
    (haddr : s.storeAddress = some s.params.regPrescale) (hawake : s.ctl.asleep s.params = false) :
    s.lastTick .rgWr ∧ s.drv.waddr = s.params.regPrescale := by
  obtain ⟨-, -, hpre, hdiff, -⟩ := paramMap_of_paramsOk hok
  obtain ⟨-, hsleep, hprog⟩ := ctlInv_iff.1 hinv
  have hnot {a : Byte} (hch : isChannelReg s.params a = true) : a ≠ s.params.regPrescale := fun h => by
    simp [h, hpre] at hch
  unfold State.storeAddress at haddr
  split at haddr
  next hcnt =>
    cases hp : s.phase with
    | cfSleep => simp [hp, hdiff] at haddr
    | cfPresc => exact absurd (hsleep hp) (by simp [hawake])
    | cfRestore => simp [hp, hdiff] at haddr
    | cfRestart => simp [hp, hdiff] at haddr
    | spW0 =>
      obtain ⟨hch, -, -, -⟩ := hprog (.inl hp)
      exact absurd (by simpa [hp] using haddr) (hnot hch)
    | spW1 =>
      obtain ⟨-, hch, -, -⟩ := hprog (.inr (.inl hp))
      exact absurd (by simpa [hp] using haddr) (hnot hch)
    | spW2 =>
      obtain ⟨-, -, hch, -⟩ := hprog (.inr (.inr (.inl hp)))
      exact absurd (by simpa [hp] using haddr) (hnot hch)
    | spW3 =>
      obtain ⟨-, -, -, hch⟩ := hprog (.inr (.inr (.inr hp)))
      exact absurd (by simpa [hp] using haddr) (hnot hch)
    | rgWr => exact ⟨⟨hp, hcnt⟩, by simpa [hp] using haddr⟩
    | _ => simp [hp] at haddr
  next => cases haddr

/-- A tick keeps `TIMING_CORRUPT`, or sets it by REGWR's write of the prescale register while the oscillator runs. -/
theorem TickRule.timingCorrupt_cases {s u : State} (hok : paramsOk s.params = true) (hinv : CtlInv s)
    (h : TickRule s u) :
    u.ctl.timingCorrupt = s.ctl.timingCorrupt ∨
      (u.ctl.timingCorrupt = true ∧ s.lastTick .rgWr ∧ s.drv.waddr = s.params.regPrescale
        ∧ s.ctl.asleep s.params = false) := by
  cases h with
  | accept i hpres hacc => exact .inl (by rw [hacc.frame.ctl, State.latch_ctl])
  | illegal => exact .inl rfl
  | quiet => exact .inl rfl
  | busy hbusy hrule =>
    obtain heq | ⟨addr, v, haddr, -, -, heq⟩ := hrule.ctl_cases
    · exact .inl (by rw [heq])
    · rw [heq]
      obtain hkeep | ⟨rfl, hawake, hset⟩ := Ctl.poke_timingCorrupt_cases s.params s.ctl addr v
      · exact .inl hkeep
      · obtain ⟨hlast, hwaddr⟩ := store_prescale_awake hok hinv haddr hawake
        exact .inr ⟨hset, hlast, hwaddr, hawake⟩

/-- Settles O48: no write mends the timing, a reset does, and under `CtlInv` only REGWR corrupts it. -/
theorem corruptOnlyByRawPrescaleWrite : Obligations.CorruptOnlyByRawPrescaleWrite := by
  intro s t hinv hstep
  obtain ⟨hok, ⟨hrst, rfl⟩ | ⟨hrst, u, hu, rfl⟩⟩ := step_rule hstep
  · exact ⟨fun _ hset => Bool.noConfusion hset, fun _ => by rw [hrst]; rfl⟩
  · rw [hrst, State.clockEdge_ctl, Ctl.drawIfCorrupt_timingCorrupt]
    obtain hkeep | ⟨hset, hlast, hwaddr, hawake⟩ := hu.timingCorrupt_cases (s := s.dividerTick) hok hinv.dividerTick
    · have hsame : u.ctl.timingCorrupt = s.ctl.timingCorrupt := by simpa using hkeep
      rw [hsame]
      exact ⟨fun hsound hset => absurd hset (by simp [hsound]), fun hcorrupt => by simpa using hcorrupt⟩
    · exact ⟨fun _ _ => ⟨hlast, hwaddr, Ctl.asleep_eq_false_iff.1 (by simpa using hawake)⟩, fun _ => hset⟩

end Sys2Proof.Machine
end

section
/-! PROOFS. The sequencing of the ranging unit (10_state.md R24, R34, R40), and the operands its commands come with
(30_encoding.md R93). -/

namespace Sys2Proof.Machine

open Sys2Proof

/-! ## Operands of legal words (R93, R97) -/

/-- Whatever a step of the decoder reads from the word `w` is well-formed, and a CFGFREQ has the low half of `c` as its
operand. -/
def DecodesLegally (w : Word) (r : Except DecodeError Instr) : Prop :=
  ∀ i, r = .ok i → i.wf = true ∧ ∀ freq, i = .cfgfreq freq → freq = fieldC16 w

theorem DecodesLegally.error (w : Word) (e : DecodeError) : DecodesLegally w (.error e) := nofun

theorem DecodesLegally.ite {w : Word} {c : Prop} [Decidable c] {a b : Except DecodeError Instr}
    (ha : c → DecodesLegally w a) (hb : DecodesLegally w b) : DecodesLegally w (if c then a else b) := by
  split
  · next h => exact ha h
  · exact hb

theorem DecodesLegally.row {w : Word} {c : Prop} [Decidable c] {r : OpcodeRow} {k b : Except DecodeError Instr}
    (hk : DecodesLegally w k) (hb : DecodesLegally w b) : DecodesLegally w (if c then r.checked w k else b) :=
  .ite (fun _ => .ite (fun _ => hk) (.error w _)) hb

/-- A command without a value constraint. -/
theorem DecodesLegally.ok {w : Word} {i : Instr} (hwf : i.wf = true) (hi : ∀ freq, i ≠ .cfgfreq freq) :
    DecodesLegally w (.ok i) := by
  intro j hj
  cases hj
  exact ⟨hwf, fun freq h => absurd h (hi freq)⟩

theorem decodesLegally_cfgfreq (w : Word) : DecodesLegally w (decodeCfgfreq w) :=
  .ite (fun h i hi => by cases hi; exact ⟨h, fun freq hfreq => by cases hfreq; rfl⟩) (.error w _)

theorem decodesLegally_measure (w : Word) : DecodesLegally w (decodeMeasure w) :=
  .ite (fun h => .ok h nofun) (.error w _)

theorem decodesLegally (w : Word) : DecodesLegally w (decode w) :=
  .row (decodesLegally_cfgfreq w) <| .row (.ok rfl nofun) <| .row (.ok rfl nofun) <| .row (.ok rfl nofun) <|
    .row (.ok rfl nofun) <| .row (.ok rfl nofun) <| .row (.ok rfl nofun) <| .row (.ok rfl nofun) <|
    .row (decodesLegally_measure w) <| .row (.ok rfl nofun) <| .row (.ok rfl nofun) (.error w _)

/-- The digits asked of a legal MEASURE (R93). -/
theorem nsig_of_decode {w : Word} {nsig : BitVec 8} (h : decode w = .ok (.measure nsig)) :
    1 ≤ nsig.toNat ∧ nsig.toNat ≤ 9 := by
  have hlegal : nsigLegal nsig = true := (decodesLegally w _ h).1
  simpa [nsigLegal] using hlegal

/-- The frequency of a CFGFREQ is the one its phases read from `CMD` (R126). -/
theorem cmdFreq_of_decode {w : Word} {freq : BitVec 16} (h : decode w = .ok (.cfgfreq freq)) : cmdFreq w = freq :=
  ((decodesLegally w _ h).2 freq rfl).symm

/-! ## Ticks that leave the ranging unit alone -/

/-- No measurement is in flight before or after, and no ranging register is written. -/
structure LeavesRanging (s u : State) : Prop where
  params : u.params = s.params
  seq : u.seq = s.seq
  before : s.phase.measuring = false
  after : u.phase.measuring = false

theorem Phase.measuring_of_eq_idle {ph : Phase} (h : ph = .idle) : ph.measuring = false := h ▸ rfl

/-- An access phase belongs to no measurement. -/
theorem Phase.measuring_of_onBus {ph : Phase} (h : ph.onBus = true) : ph.measuring = false := by
  cases ph <;> simp_all [Phase.onBus, Phase.measuring]

/-- The driver's phases leave the ranging unit alone (R42). -/
theorem DriverRule.leavesRanging {s u : State} (h : DriverRule s u) : LeavesRanging s u := by
  cases h with
  | busError hbus => exact ⟨rfl, rfl, Phase.measuring_of_onBus hbus, rfl⟩
  | modeRead hlast => exact ⟨rfl, rfl, by rw [hlast.1]; rfl, rfl⟩
  | store next addr v hnext =>
    obtain ⟨hp, rfl⟩ | ⟨hp, rfl⟩ | ⟨hp, rfl⟩ | ⟨hp, rfl⟩ | ⟨hp, rfl⟩ := Phase.nextAccess_eq_some hnext <;>
      exact ⟨rfl, rfl, by rw [hp]; rfl, rfl⟩
  | restore hlast => exact ⟨rfl, rfl, by rw [hlast.1]; rfl, rfl⟩
  | settle hlast => exact ⟨rfl, rfl, by rw [hlast.1]; rfl, rfl⟩
  | restart hlast => exact ⟨rfl, rfl, by rw [hlast.1]; rfl, rfl⟩
  | storeLast addr v hph => exact ⟨rfl, rfl, by rcases hph with hp | hp <;> rw [hp] <;> rfl, rfl⟩
  | byteRead hlast => exact ⟨rfl, rfl, by rw [hlast.1]; rfl, rfl⟩

theorem leavesRanging_access {s : State} {d : Drv} {ph : Phase} (hidle : s.phase = .idle)
    (hph : ph = .cfRead ∨ ph = .rgWr ∨ ph = .rgRd) :
    LeavesRanging s (State.enterBus { s with drv := d } ph) :=
  ⟨rfl, rfl, Phase.measuring_of_eq_idle hidle, by rcases hph with rfl | rfl | rfl <;> rfl⟩

/-! ## Sequencing -/

theorem LeavesRanging.keeps_sequenceInv {s u : State} (h : LeavesRanging s u) (hinv : SequenceInv s)
    (hcnt : u.phase.hasLength = true → u.waitCnt ≠ 0) : SequenceInv u := by
  obtain ⟨-, -, hout, hconf⟩ := hinv
  have hbefore : s.phase ≠ .usRearm := fun hp => by simpa [hp, Phase.measuring] using h.before
  have hafter : u.phase ≠ .usRearm := fun hp => by simpa [hp, Phase.measuring] using h.after
  refine ⟨hcnt, fun hm => absurd hm (by simp [h.after]), ?_, h.seq.symm ▸ hconf⟩
  rw [h.seq]
  exact iff_of_false hafter (mt hout.2 hbefore)

/-- A legal operand keeps its value in the four bits of `NSIG` (R93). -/
theorem nsig_toNat {nsig : BitVec 8} (h : nsig.toNat ≤ 9) : (nsig.setWidth 4).toNat = nsig.toNat := by
  rw [BitVec.toNat_setWidth]
  omega

/-- A measurement that ends, with any outcome, is in order at the re-arm. -/
theorem sequenceInv_of_finish {r : State} {o : MeasureOutcome} (ho : o ≠ .none)
    (hmeas : r.seq.usReady = true ∧ 1 ≤ r.seq.nsig.toNat ∧ r.seq.nsig.toNat ≤ 9)
    (hconf : r.seq.usReady = true → 1 ≤ r.seq.usMin.toNat ∧ r.seq.usMin.toNat ≤ r.seq.usMax.toNat) :
    SequenceInv (r.finishMeasure o) :=
  ⟨by simp, fun _ => hmeas, iff_of_true rfl ho, hconf⟩

theorem Accepted.keeps_sequenceInv {s u : State} {i : Instr} (hok : paramsOk s.params = true) (hinv : SequenceInv s)
    (hidle : s.phase = .idle) (hsig : ∀ nsig, i = .measure nsig → 1 ≤ nsig.toNat ∧ nsig.toNat ≤ 9)
    (h : Accepted s i u) : SequenceInv u := by
  have hbefore := Phase.measuring_of_eq_idle hidle
  have ⟨_, _, hout, hconf⟩ := hinv
  have hnone : s.seq.outcome = .none := by simpa [hidle] using hout
  cases h with
  | answer => exact LeavesRanging.keeps_sequenceInv (s := s) ⟨rfl, rfl, hbefore, rfl⟩ hinv nofun
  | access i d ph hph hfreq =>
    exact (leavesRanging_access hidle hph).keeps_sequenceInv hinv fun _ => s.env.busLat_ne_zero s.accno
  | channel =>
    exact LeavesRanging.keeps_sequenceInv (s := s) ⟨rfl, rfl, hbefore, rfl⟩ hinv fun _ => s.env.busLat_ne_zero s.accno
  | configure minCm maxCm strict hmin hle hready =>
    refine ⟨nofun, nofun, by simp [hnone], fun _ => ?_⟩
    simp only [State.respondDone_seq, Seq.arm_usMin, Seq.arm_usMax]
    exact ⟨by bv_omega, by bv_omega⟩
  | release => exact ⟨nofun, nofun, by simp [hnone], nofun⟩
  | noPulse nsig hready =>
    have hlegal := hsig nsig rfl
    refine sequenceInv_of_finish (by decide) ⟨hready, ?_⟩ hconf
    simpa [State.beginMeasure, nsig_toNat hlegal.2] using hlegal
  | pulse nsig hready =>
    have hlegal := hsig nsig rfl
    refine ⟨fun _ => (ne_zero_of_paramsOk hok).1, fun _ => ⟨hready, ?_⟩, ?_, hconf⟩
    · simpa [State.startPulse, State.beginMeasure, nsig_toNat hlegal.2] using hlegal
    · simpa [State.startPulse, State.beginMeasure] using hnone

theorem DriverRule.waitCnt_ne_zero {s u : State} (hok : paramsOk s.params = true) (h : DriverRule s u) :
    u.phase.hasLength = true → u.waitCnt ≠ 0 := by
  intro hlen
  cases h with
  | busError => cases hlen
  | modeRead => exact s.env.busLat_ne_zero (s.accno + 1)
  | store => exact s.env.busLat_ne_zero (s.accno + 1)
  | restore => exact (ne_zero_of_paramsOk hok).2.1
  | settle => exact s.env.busLat_ne_zero s.accno
  | restart => cases hlen
  | storeLast => cases hlen
  | byteRead => cases hlen

theorem RangingRule.keeps_sequenceInv {s u : State} (hinv : SequenceInv s) (h : RangingRule s u) :
    SequenceInv u := by
  obtain ⟨-, hmeas, hout, hconf⟩ := hinv
  have hnone (hp : s.phase ≠ .usRearm) : s.seq.outcome = .none := by simpa [hp] using hout
  cases h with
  | hwError hph =>
    have hm : s.phase.measuring = true := by rcases hph with hp | hp | hp <;> rw [hp] <;> rfl
    exact sequenceInv_of_finish (by decide) (hmeas hm) hconf
  | pulseEnd hlast =>
    rw [endPulse_eq]
    exact ⟨nofun, fun _ => hmeas (by rw [hlast.1]; rfl), by simpa using hnone (by simp [hlast.1]), hconf⟩
  | echoRise hph => exact ⟨nofun, fun _ => hmeas (by rw [hph]; rfl), by simpa using hnone (by simp [hph]), hconf⟩
  | riseTimeout hph => exact sequenceInv_of_finish (by decide) (hmeas (by rw [hph]; rfl)) hconf
  | riseWait hph => exact ⟨by simp [hph, Phase.hasLength], hmeas, hout, hconf⟩
  | fallTimeout hph => exact sequenceInv_of_finish (by decide) (hmeas (by rw [hph]; rfl)) hconf
  | fallWait hph => exact ⟨by simp [hph, Phase.hasLength], hmeas, hout, hconf⟩
  | echoFall hph => exact sequenceInv_of_finish (by decide) (hmeas (by rw [hph]; rfl)) hconf
  | rearm =>
    obtain ⟨st, k, exp, val, heq⟩ := rearmAct_eq s
    exact heq ▸ ⟨nofun, nofun, by simp, hconf⟩

theorem PhaseRule.keeps_sequenceInv {s u : State} (hok : paramsOk s.params = true) (hinv : SequenceInv s)
    (h : PhaseRule s u) : SequenceInv u := by
  cases h with
  | wait hlen hcnt => exact ⟨fun _ => sub_ne_zero.2 hcnt, hinv.2⟩
  | driver h => exact h.leavesRanging.keeps_sequenceInv hinv (h.waitCnt_ne_zero hok)
  | ranging h => exact h.keeps_sequenceInv hinv

theorem TickRule.keeps_sequenceInv {s u : State} (hok : paramsOk s.params = true) (hinv : SequenceInv s)
    (h : TickRule s u) : SequenceInv u := by
  cases h with
  | accept i hpres hacc =>
    obtain ⟨hidle, -, hdec⟩ := hpres
    exact hacc.keeps_sequenceInv (s := s.latch s.inputs.cmd) hok hinv hidle fun nsig hi => nsig_of_decode (hi ▸ hdec)
  | illegal hidle hvalid =>
    exact LeavesRanging.keeps_sequenceInv (s := s) ⟨rfl, rfl, Phase.measuring_of_eq_idle hidle, rfl⟩ hinv nofun
  | quiet => exact hinv
  | busy hbusy hrule => exact hrule.keeps_sequenceInv hok hinv

/-- Settles O56: the divider and the clock edge touch nothing of the sequencing, and every rule of a tick keeps it. -/
theorem stepKeepsSequenceInv : Obligations.StepKeepsSequenceInv := by
  intro s t hinv hstep
  obtain ⟨hok, ⟨-, rfl⟩ | ⟨-, u, hu, rfl⟩⟩ := step_rule hstep
  · exact (invariantsHoldAfterReset _ _ _).2.1
  · exact (show SequenceInv u from hu.keeps_sequenceInv (s := s.dividerTick) hok hinv)

end Sys2Proof.Machine
end

section
/-! PROOFS. The ranging pins (10_state.md R35, 42_ultrasonic_sequencer.md R190, R212). -/

namespace Sys2Proof.Machine

open Sys2Proof

/-- What `PinInv` says in every phase: the mirror of a shared pin, and no trigger input on two pins (R35, R190). -/
def PinsWired (p : Config.Params) (q : Seq) : Prop :=
  if p.sharedPin then q.echoMode = mirrorMode q.trigMode else q.trigMode ≠ .inp

/-- The pins as armed (R190). -/
def PinsArmed (p : Config.Params) (q : Seq) : Prop :=
  q.trigMode = .out ∧ q.trig = false ∧ q.echoMode = armedEcho p

/-- The pins in the two waits (R201, R212). -/
def PinsListening (p : Config.Params) (q : Seq) : Prop :=
  q.trig = false ∧ q.echoMode = .inp ∧ q.trigMode = if p.sharedPin then .inp else .out

theorem Seq.arm_armed (p : Config.Params) (q : Seq) : PinsArmed p (q.arm p) := ⟨rfl, rfl, rfl⟩

theorem armedEcho_wired {p : Config.Params} {q : Seq} (htrig : q.trigMode = .out) (hecho : q.echoMode = armedEcho p) :
    PinsWired p q := by
  unfold PinsWired
  cases hsh : p.sharedPin <;> simp [htrig, hecho, armedEcho, hsh, mirrorMode]

theorem PinsListening.wired {p : Config.Params} {q : Seq} (h : PinsListening p q) : PinsWired p q := by
  obtain ⟨-, hecho, htrig⟩ := h
  unfold PinsWired
  cases hsh : p.sharedPin <;> simp [htrig, hecho, hsh, mirrorMode]

/-- While no measurement is in flight, armed pins of a constructed unit meet the invariant. -/
theorem pinInv_of_armed {u : State} (hready : u.seq.usReady = true) (hphase : u.phase.measuring = false)
    (h : PinsArmed u.params u.seq) : PinInv u :=
  ⟨by simp [hready], fun _ _ => h, fun hp => by simp [hp, Phase.measuring] at hphase,
    by rintro (hp | hp) <;> simp [hp, Phase.measuring] at hphase, armedEcho_wired h.1 h.2.2⟩

/-- In a wait, listening pins meet the invariant. -/
theorem pinInv_of_listening {u : State} (hready : u.seq.usReady = true)
    (hphase : u.phase = .usRise ∨ u.phase = .usFall) (h : PinsListening u.params u.seq) : PinInv u :=
  ⟨by simp [hready], fun _ hm => by rcases hphase with hp | hp <;> simp [hp, Phase.measuring] at hm,
    fun hp => by simp [hp] at hphase, fun _ => h, h.wired⟩

/-- Before the re-arm nothing is asked of the pins but their wiring. -/
theorem pinInv_of_rearm {u : State} (hready : u.seq.usReady = true) (hphase : u.phase = .usRearm)
    (h : PinsWired u.params u.seq) : PinInv u :=
  ⟨by simp [hready], fun _ hm => by simp [hphase, Phase.measuring] at hm, by simp [hphase], by simp [hphase], h⟩

theorem LeavesRanging.keeps_pinInv {s u : State} (h : LeavesRanging s u) (hinv : PinInv s) : PinInv u := by
  obtain ⟨hparams, hseq, hbefore, hafter⟩ := h
  obtain ⟨hreleased, harmed, -, -, hwired⟩ := hinv
  refine ⟨hseq ▸ hreleased, ?_, fun hp => ?_, ?_, by rw [hseq, hparams]; exact hwired⟩
  · rw [hseq, hparams]
    exact fun hready _ => harmed hready hbefore
  · simp [hp, Phase.measuring] at hafter
  · rintro (hp | hp) <;> simp [hp, Phase.measuring] at hafter

theorem Accepted.keeps_pinInv {s u : State} {i : Instr} (hinv : PinInv s) (hidle : s.phase = .idle)
    (h : Accepted s i u) : PinInv u := by
  have hbefore := Phase.measuring_of_eq_idle hidle
  have ⟨_, harmed, _, _, hwired⟩ := hinv
  cases h with
  | answer => exact LeavesRanging.keeps_pinInv (s := s) ⟨rfl, rfl, hbefore, rfl⟩ hinv
  | access i d ph hph hfreq => exact (leavesRanging_access hidle hph).keeps_pinInv hinv
  | channel => exact LeavesRanging.keeps_pinInv (s := s) ⟨rfl, rfl, hbefore, rfl⟩ hinv
  | configure => exact pinInv_of_armed rfl rfl (Seq.arm_armed _ _)
  | release =>
    exact ⟨fun _ => ⟨rfl, rfl, rfl⟩, nofun, nofun, nofun, by simp [mirrorMode]⟩
  | noPulse nsig hready => exact pinInv_of_rearm hready rfl hwired
  | pulse nsig hready =>
    obtain ⟨-, -, hecho⟩ := harmed hready hbefore
    have hecho' : (s.beginMeasure nsig).startPulse.seq.echoMode = armedEcho s.params := by
      cases hsh : s.params.sharedPin <;>
        simp_all [State.startPulse, State.beginMeasure, armedEcho, mirrorMode]
    exact ⟨fun hr => absurd hready (by simpa [State.startPulse, State.beginMeasure] using hr),
      nofun, fun _ => ⟨rfl, rfl, hecho'⟩, nofun, armedEcho_wired rfl hecho'⟩

theorem RangingRule.keeps_pinInv {s u : State} (hseq : SequenceInv s) (hinv : PinInv s) (h : RangingRule s u) :
    PinInv u := by
  obtain ⟨-, -, hpulse, hlisten, hwired⟩ := hinv
  have hready (hm : s.phase.measuring = true) : s.seq.usReady = true := (hseq.2.1 hm).1
  cases h with
  | hwError hph => exact pinInv_of_rearm (hready (by rcases hph with hp | hp | hp <;> rw [hp] <;> rfl)) rfl hwired
  | pulseEnd hlast =>
    obtain ⟨htrig, -, hecho⟩ := hpulse hlast.1
    rw [endPulse_eq]
    refine pinInv_of_listening (hready (by rw [hlast.1]; rfl)) (.inl rfl) ⟨rfl, ?_, ?_⟩
    · cases hsh : s.params.sharedPin <;> simp [hsh, hecho, armedEcho]
    · cases hsh : s.params.sharedPin <;> simp [hsh, htrig]
  | echoRise hph => exact pinInv_of_listening (hready (by rw [hph]; rfl)) (.inr rfl) (hlisten (.inl hph))
  | riseTimeout hph => exact pinInv_of_rearm (hready (by rw [hph]; rfl)) rfl hwired
  | riseWait hph => exact pinInv_of_listening (hready (by rw [hph]; rfl)) (.inl hph) (hlisten (.inl hph))
  | fallTimeout hph => exact pinInv_of_rearm (hready (by rw [hph]; rfl)) rfl hwired
  | fallWait hph => exact pinInv_of_listening (hready (by rw [hph]; rfl)) (.inr hph) (hlisten (.inr hph))
  | echoFall hph => exact pinInv_of_rearm (hready (by rw [hph]; rfl)) rfl hwired
  | rearm hlast =>
    obtain ⟨st, k, exp, val, heq⟩ := rearmAct_eq s
    exact heq ▸ pinInv_of_armed (hready (by rw [hlast.1]; rfl)) rfl ⟨rfl, rfl, rfl⟩

theorem TickRule.keeps_pinInv {s u : State} (hseq : SequenceInv s) (hinv : PinInv s) (h : TickRule s u) : PinInv u := by
  cases h with
  | accept i hpres hacc => exact hacc.keeps_pinInv (s := s.latch s.inputs.cmd) hinv hpres.1
  | illegal hidle hvalid =>
    exact LeavesRanging.keeps_pinInv (s := s) ⟨rfl, rfl, Phase.measuring_of_eq_idle hidle, rfl⟩ hinv
  | quiet => exact hinv
  | busy hbusy hrule =>
    cases hrule with
    | wait => exact hinv
    | driver h => exact h.leavesRanging.keeps_pinInv hinv
    | ranging h => exact h.keeps_pinInv hseq hinv

/-- Settles O57: the divider and the clock edge touch no pin, and every rule of a tick leaves the pins as its phase
says. -/
theorem stepKeepsPinInv : Obligations.StepKeepsPinInv := by
  intro s t hseq hinv hstep
  obtain ⟨-, ⟨-, rfl⟩ | ⟨-, u, hu, rfl⟩⟩ := step_rule hstep
  · exact (invariantsHoldAfterReset _ _ _).2.2.1
  · exact (show PinInv u from hu.keeps_pinInv (s := s.dividerTick) hseq hinv)

end Sys2Proof.Machine
end

section
/-! PROOFS. The timestamps of a measurement (10_state.md R38, 42_ultrasonic_sequencer.md R198 to R205). -/

namespace Sys2Proof.Machine

open Sys2Proof

/-- Below the clock bound of R233 the timeout fits its register, with room for a deadline. -/
theorem State.echoTimeout_lt {s : State} (v : BitVec 32) (hosc : s.params.oscHz < 2 ^ 32) :
    (s.echoTimeout v).toNat < 2 ^ 53 := by
  have hmul : 20 * s.seq.usMax.toNat * s.params.oscHz ≤ 20 * 2 ^ 16 * 2 ^ 32 :=
    Nat.mul_le_mul (Nat.mul_le_mul_left 20 s.seq.usMax.isLt.le) hosc.le
  have hticks : timeoutTicks s.params.oscHz s.seq.usMax.toNat v.toNat < 2 ^ 53 :=
    calc timeoutTicks s.params.oscHz s.seq.usMax.toNat v.toNat
      _ ≤ 20 * s.seq.usMax.toNat * s.params.oscHz := Nat.div_le_self _ _
      _ ≤ 20 * 2 ^ 16 * 2 ^ 32 := hmul
      _ < 2 ^ 53 := by decide
  rwa [State.echoTimeout, fit64_toNat (by omega)]

/-- Below the launch premises the pulse starts with the exact deadline (R38, R198). -/
theorem startPulse_deadlineSet {s : State} (h : TimeInRange s) : DeadlineSet s.startPulse := by
  obtain ⟨htime, htrig, hosc⟩ := h
  have hto := State.echoTimeout_lt (s := s) s.seq.v hosc
  exact fit64_toNat (by omega)

/-- Outside a measurement there is nothing to keep. -/
theorem timestampInv_of_not_measuring {s : State} (h : s.phase.measuring = false) : TimestampInv s := by
  refine ⟨fun hp => ?_, fun hp => ?_, fun hp => ?_, fun hp => ?_⟩ <;> simp [hp, Phase.measuring] at h

/-- A measurement that ends without a width has none to keep. -/
theorem timestampInv_of_finish {s : State} {o : MeasureOutcome} (h : o ≠ .ok) :
    TimestampInv (s.finishMeasure o).clockEdge :=
  ⟨nofun, nofun, nofun, fun _ ho => absurd ho h⟩

theorem Accepted.timestampInv {s u : State} {i : Instr} (hrange : TimeInRange s) (h : Accepted s i u) :
    TimestampInv u.clockEdge := by
  cases h with
  | access i d ph hph hfreq =>
    exact timestampInv_of_not_measuring (by rcases hph with rfl | rfl | rfl <;> rfl)
  | noPulse => exact timestampInv_of_finish (by decide)
  | pulse nsig hready =>
    refine ⟨fun _ => ⟨startPulse_deadlineSet (s := s.beginMeasure nsig) hrange, ?_⟩, nofun, nofun, nofun⟩
    rw [State.clockEdge_time_toNat (s := (s.beginMeasure nsig).startPulse) hrange.1]
    exact Nat.add_right_comm _ _ _
  | _ => exact timestampInv_of_not_measuring rfl

/-- A pulse that goes on: one tick less remains. -/
theorem timestampInv_wait {s : State} (htime : s.time.toNat < 2 ^ 63) (hseq : SequenceInv s) (hinv : TimestampInv s)
    (hlen : s.phase.hasLength = true) :
    TimestampInv (State.clockEdge { s with waitCnt := s.waitCnt - 1 }) := by
  obtain ⟨htrig, -, -, hrearm⟩ := hinv
  refine ⟨fun hp => ?_, fun hp => ?_, fun hp => ?_, hrearm⟩
  · obtain ⟨hset, hticks⟩ := htrig hp
    refine ⟨hset, ?_⟩
    rw [State.clockEdge_time_toNat (s := { s with waitCnt := s.waitCnt - 1 }) htime]
    have hzero := hseq.1 hlen
    have hless : (s.waitCnt - 1).toNat + 1 = s.waitCnt.toNat := by bv_omega
    show s.time.toNat + 1 + (s.waitCnt - 1).toNat = _
    rw [Nat.add_right_comm, Nat.add_assoc, hless]
    exact hticks
  · exact absurd hlen (by rw [show s.phase = .usRise from hp]; decide)
  · exact absurd hlen (by rw [show s.phase = .usFall from hp]; decide)

theorem RangingRule.timestampInv {s u : State} (htime : s.time.toNat < 2 ^ 63) (hinv : TimestampInv s)
    (h : RangingRule s u) : TimestampInv u.clockEdge := by
  have hsucc : u.clockEdge.time.toNat = s.time.toNat + 1 := by
    rw [State.clockEdge_time_toNat (h.frame.time.symm ▸ htime), h.frame.time]
  obtain ⟨htrig, hrise, hfall, -⟩ := hinv
  cases h with
  | hwError => exact timestampInv_of_finish (by decide)
  | pulseEnd hlast =>
    obtain ⟨hset, hticks⟩ := htrig hlast.1
    have hend : s.time.toNat = s.seq.now.toNat + s.params.trigTicks.toNat := by
      rw [hlast.2] at hticks
      exact Nat.add_right_cancel hticks
    rw [endPulse_eq] at hsucc ⊢
    refine ⟨nofun, fun _ => ⟨hset, hsucc.symm, ?_⟩, nofun, nofun⟩
    show s.time.toNat ≤ s.seq.deadline.toNat
    rw [hset, hend]
    exact Nat.le_add_right _ _
  | echoRise hph =>
    obtain ⟨hset, hstart, hdead⟩ := hrise hph
    exact ⟨nofun, nofun, fun _ => ⟨hset, hsucc.symm, Nat.lt_of_succ_le hstart.le, hdead⟩, nofun⟩
  | riseTimeout => exact timestampInv_of_finish (by decide)
  | riseWait hph hdead =>
    have hother {ph : Phase} (hne : ph ≠ .usRise) (hp : s.phase = ph) : False := hne (hp.symm.trans hph)
    exact ⟨fun hp => (hother (by decide) hp).elim,
      fun _ => ⟨(hrise hph).1, hsucc.symm, BitVec.not_lt.1 hdead⟩,
      fun hp => (hother (by decide) hp).elim, fun hp => (hother (by decide) hp).elim⟩
  | fallTimeout => exact timestampInv_of_finish (by decide)
  | fallWait hph =>
    obtain ⟨hset, hend, hwidth, hdead⟩ := hfall hph
    have hother {ph : Phase} (hne : ph ≠ .usFall) (hp : s.phase = ph) : False := hne (hp.symm.trans hph)
    have hlate : s.seq.pstart.toNat < s.time.toNat := by omega
    exact ⟨fun hp => (hother (by decide) hp).elim, fun hp => (hother (by decide) hp).elim,
      fun _ => ⟨hset, hsucc.symm, hlate, hdead⟩, fun hp => (hother (by decide) hp).elim⟩
  | echoFall hph =>
    obtain ⟨-, -, hwidth, -⟩ := hfall hph
    exact ⟨nofun, nofun, nofun, fun _ _ => hwidth⟩
  | rearm =>
    obtain ⟨st, k, exp, val, heq⟩ := rearmAct_eq s
    exact heq ▸ timestampInv_of_not_measuring rfl

theorem TickRule.timestampInv {s u : State} (hrange : TimeInRange s) (hseq : SequenceInv s) (hinv : TimestampInv s)
    (h : TickRule s u) : TimestampInv u.clockEdge := by
  cases h with
  | accept i hpres hacc => exact hacc.timestampInv (s := s.latch s.inputs.cmd) hrange
  | illegal => exact timestampInv_of_not_measuring rfl
  | quiet hidle => exact timestampInv_of_not_measuring (Phase.measuring_of_eq_idle hidle)
  | busy hbusy hrule =>
    cases hrule with
    | wait hlen hcnt => exact timestampInv_wait hrange.1 hseq hinv hlen
    | driver h => exact timestampInv_of_not_measuring h.leavesRanging.after
    | ranging h => exact h.timestampInv hrange.1 hinv

/-- Settles O58: each rule of a tick, with the clock edge that ends it, leaves the timestamps in order. -/
theorem stepKeepsTimestampInv : Obligations.StepKeepsTimestampInv := by
  intro s t hrange hseq hinv hstep
  obtain ⟨-, ⟨-, rfl⟩ | ⟨-, u, hu, rfl⟩⟩ := step_rule hstep
  · exact (invariantsHoldAfterReset _ _ _).2.2.2
  · exact hu.timestampInv (s := s.dividerTick) hrange hseq hinv

end Sys2Proof.Machine
end

section
/-! PROOFS. Runs of a command whose accesses succeed (10_state.md R24, 20_memory.md R64 to R67): a phase with a length is
one piece of a run, at whose end the state is the one before it but for the clock, the counters and the phase's own
effect. -/

namespace Sys2Proof.Machine

open Sys2Proof

/-! ## The controller without its counters -/

/-- What of the controller the divider and the draws leave alone: everything but the counters. -/
def Ctl.regs (c : Ctl) : Ctl := { c with psc := 0, step := 0 }

@[simp] theorem Ctl.regs_tick (p : Config.Params) (c : Ctl) : (c.tick p).regs = c.regs := by
  simp [Ctl.regs]

@[simp] theorem Ctl.regs_drawIfCorrupt (n : Nat) (c : Ctl) : (c.drawIfCorrupt n).regs = c.regs := by
  simp [Ctl.regs]

/-- A register write does the same to the registers, whatever the counters. -/
theorem Ctl.regs_poke (p : Config.Params) (c : Ctl) (addr v : Byte) :
    (c.poke p addr v).regs = (c.regs.poke p addr v).regs := by
  have hasleep : c.regs.asleep p = c.asleep p := rfl
  unfold Ctl.poke Ctl.writeMode Ctl.writePrescale
  rw [hasleep]
  split_ifs <;> rfl

theorem Ctl.regs_poke_congr {p : Config.Params} {c d : Ctl} (h : c.regs = d.regs) (addr v : Byte) :
    (c.poke p addr v).regs = (d.poke p addr v).regs := by
  rw [Ctl.regs_poke, h, ← Ctl.regs_poke]

theorem Ctl.peek_regs_congr {p : Config.Params} {c d : Ctl} (h : c.regs = d.regs) (a : Byte) :
    c.peek p a = d.peek p a := by
  have hpeek (e : Ctl) : e.regs.peek p a = e.peek p a := rfl
  rw [← hpeek c, h, hpeek d]

/-- What does not depend on the counters follows from the registers. -/
theorem Ctl.eq_of_regs_eq {c d : Ctl} (h : c.regs = d.regs) : c = { d with psc := c.psc, step := c.step } := by
  obtain ⟨hmode, hpre, hch, -, -, hcor⟩ := Ctl.mk.inj h
  cases c
  cases d
  simp_all

/-! ## Later states -/

/-- `t` is the state `e`, up to phase and counters, `k` ticks later on the clock. -/
structure Later (k : Nat) (e t : State) : Prop where
  params : t.params = e.params
  cmd : t.cmd = e.cmd
  accno : t.accno = e.accno
  drv : t.drv = e.drv
  regs : t.ctl.regs = e.ctl.regs
  seq : t.seq = e.seq
  time : t.time = e.time + BitVec.ofNat 64 k
  draws : ∀ j, t.env.busDraw j = e.env.busDraw j
  pins : ∀ j, t.pinsAt j = e.pinsAt (k + j)

section later
variable {k : Nat} {e t : State}

theorem Later.refl (s : State) : Later 0 s s :=
  ⟨rfl, rfl, rfl, rfl, rfl, rfl, by simp, fun _ => rfl, fun j => by rw [Nat.zero_add]⟩

/-- The divider moves the counters alone. -/
theorem Later.dividerTick (h : Later k e t) : Later k e t.dividerTick :=
  { h with regs := (Ctl.regs_tick _ _).trans h.regs }

/-- The clock edge is one tick more. -/
theorem Later.clockEdge (h : Later k e t) : Later (k + 1) e t.clockEdge where
  params := h.params
  cmd := h.cmd
  accno := h.accno
  drv := h.drv
  regs := (Ctl.regs_drawIfCorrupt _ _).trans h.regs
  seq := h.seq
  time := by rw [State.clockEdge_time, h.time, BitVec.ofNat_add, BitVec.add_assoc]; rfl
  draws j := (Env.advance_busDraw _ j).trans (h.draws j)
  pins j := by
    have hnext : t.clockEdge.pinsAt j = t.pinsAt (j + 1) := Env.pinsAt_advance t.env j
    rw [hnext, h.pins, Nat.add_right_comm, Nat.add_assoc]

/-- Phase, wait count and response are not compared. -/
theorem Later.withPhase (h : Later k e t) (ph : Phase) (n : BitVec 64) (r : Resp) :
    Later k e { t with phase := ph, waitCnt := n, resp := r } :=
  { h with }

theorem Later.enter (h : Later k e t) (ph : Phase) (n : BitVec 64) : Later k e (t.enter ph n) :=
  h.withPhase ph n t.resp

theorem Later.enterBus (h : Later k e t) (ph : Phase) : Later k e (t.enterBus ph) := h.enter ph _

theorem Later.stored (h : Later k e t) (addr v : Byte) : Later k (e.stored addr v) (t.stored addr v) :=
  { h with
    accno := congrArg (· + 1) h.accno
    regs := by rw [State.stored_ctl, State.stored_ctl, h.params]; exact Ctl.regs_poke_congr h.regs addr v }

theorem Later.peek (h : Later k e t) (a : Byte) : t.peek a = e.peek a := by
  unfold State.peek
  rw [h.params, Ctl.peek_regs_congr h.regs]

theorem Later.busLat (h : Later k e t) : t.busLat = e.busLat := by
  simp only [State.busLat, Env.busLat, h.accno, h.draws]

theorem Later.busFails (h : Later k e t) : t.busFails = e.busFails := by
  simp only [State.busFails, State.accessFails, h.accno, h.draws, h.params]

theorem Later.time_toNat (h : Later k e t) (hk : e.time.toNat + k < 2 ^ 63) : t.time.toNat = e.time.toNat + k := by
  rw [h.time, BitVec.toNat_add, BitVec.toNat_ofNat]
  omega

/-- What runs for `k + n` ticks from `e` runs for `n` more. -/
theorem Later.running (h : Later k e t) {n : Nat} (hrun : e.runningFor n) (hk : k < n) : t.running :=
  ⟨h.params.symm ▸ hrun.1, by
    have hpin : t.inputs = e.pinsAt k := h.pins 0
    rw [hpin]
    exact hrun.2 k hk⟩

end later

/-! ## Runs piece by piece -/

/-- A run continued by one step. -/
theorem State.run_succ_right {s t u : State} {n : Nat} (h : s.run n = .next t) (hstep : step t = .next u) :
    s.run (n + 1) = .next u := by
  induction n generalizing s with
  | zero =>
    cases h
    exact (State.run_succ _ 0 hstep).trans u.run_zero
  | succ n ih =>
    cases hfirst : step s with
    | next s' =>
      rw [State.run_succ s n hfirst] at h
      rw [State.run_succ s (n + 1) hfirst]
      exact ih h
    | fault r => cases r
    | refused r =>
      have hstop : s.run (n + 1) = .refused r := by
        have hcore : Sys2Proof.core.step s = .refused r := hfirst
        simp only [State.run, Host.Core.run, hcore]
        rfl
      cases hstop.symm.trans h

/-- `s` has run for `k` ticks to `t`, which is `e` but for the phase and the counters. -/
structure Reached (s : State) (k : Nat) (e t : State) : Prop where
  run : s.run k = .next t
  later : Later k e t

/-- A phase that counts down: at its last tick its action fires on a state that is still `e`. -/
theorem Reached.lastTick {s e t : State} {k l : Nat} {ph : Phase} {act : State → State}
    (h : Reached s k e t) (hbusy : ph ≠ .idle) (htick : ∀ r : State, r.phase = ph → r.phaseTick = r.timed act)
    (hphase : t.phase = ph) (hcnt : t.waitCnt.toNat = l + 1) (hrun : e.runningFor (k + (l + 1))) :
    ∃ r, Later (k + l) e r ∧ r.phase = ph ∧ s.run (k + (l + 1)) = .next (act r).clockEdge := by
  induction l generalizing t k with
  | zero =>
    have hone : t.dividerTick.waitCnt = 1 := BitVec.eq_of_toNat_eq hcnt
    have hstep := step_busy (h.later.running hrun (by omega)) (hphase ▸ hbusy)
    rw [htick t.dividerTick hphase, State.timed_last hone] at hstep
    exact ⟨t.dividerTick, h.later.dividerTick, hphase, State.run_succ_right h.run hstep⟩
  | succ l ih =>
    have hmore : t.dividerTick.waitCnt ≠ 1 := fun hone => by
      rw [State.dividerTick_waitCnt] at hone
      rw [hone] at hcnt
      simp at hcnt
    have hstep := step_busy (h.later.running hrun (by omega)) (hphase ▸ hbusy)
    rw [htick t.dividerTick hphase, State.timed_wait hmore] at hstep
    have hless : (t.waitCnt - 1).toNat = l + 1 := by bv_omega
    have hnext : Reached s (k + 1) e (State.clockEdge { t.dividerTick with waitCnt := t.dividerTick.waitCnt - 1 }) :=
      ⟨State.run_succ_right h.run hstep, (h.later.dividerTick.enter t.phase _).clockEdge⟩
    have harith : k + (l + 1 + 1) = k + 1 + (l + 1) := by omega
    rw [harith] at hrun ⊢
    have harith' : k + (l + 1) = k + 1 + l := by omega
    rw [harith']
    exact ih hnext hphase hless hrun

/-- The same for a phase of `n` ticks: the state whose last tick comes, one tick before the end. -/
theorem Reached.counted {s e t : State} {k n : Nat} {ph : Phase} {act : State → State}
    (h : Reached s k e t) (hbusy : ph ≠ .idle) (htick : ∀ r : State, r.phase = ph → r.phaseTick = r.timed act)
    (hphase : t.phase = ph) (hcnt : t.waitCnt.toNat = n) (hpos : 1 ≤ n) (hrun : e.runningFor (k + n)) :
    ∃ j r, k + n = j + 1 ∧ Later j e r ∧ r.phase = ph ∧ s.run (k + n) = .next (act r).clockEdge := by
  obtain ⟨l, rfl⟩ : ∃ l, n = l + 1 := ⟨n - 1, by omega⟩
  obtain ⟨r, hlater, hr, hlast⟩ := h.lastTick hbusy htick hphase hcnt hrun
  exact ⟨k + l, r, rfl, hlater, hr, hlast⟩

/-- The beginning of a register access: its phase lasts the latency drawn for it (R67). -/
def State.AtAccess (t : State) (ph : Phase) : Prop := t.phase = ph ∧ t.waitCnt = t.busLat

theorem State.atAccess_enterBus (s : State) (ph : Phase) : (s.enterBus ph).clockEdge.AtAccess ph :=
  ⟨rfl, (Env.advance_busLat _ _).symm⟩

/-- `e` is `s` after `i` register accesses of a command in flight, on the same bus (R41). -/
structure Accessed (s : State) (i : Nat) (e : State) : Prop where
  params : e.params = s.params
  env : e.env = s.env
  accno : e.accno = s.accno + i

section accessed
variable {s e : State} {i : Nat}

theorem Accessed.runningFor (h : Accessed s i e) {n : Nat} (hrun : s.runningFor n) : e.runningFor n := by
  simpa only [State.runningFor, State.pinsAt, h.params, h.env] using hrun

theorem Accessed.busFails (h : Accessed s i e) {n : Nat} (hsucc : s.accessesSucceed n) (hi : i < n) :
    e.busFails = false := by
  simpa only [State.busFails, State.accessFails, h.params, h.env, h.accno] using hsucc i hi

/-- The latency of the access numbered `i` is the next summand of the command's length. -/
theorem Accessed.latencies_succ (h : Accessed s i e) : s.latencies (i + 1) = s.latencies i + e.busLat.toNat := by
  rw [State.latencies, State.busLat, h.env, h.accno]

theorem Accessed.stored (h : Accessed s i e) (addr v : Byte) : Accessed s (i + 1) (e.stored addr v) :=
  ⟨h.params, h.env, congrArg (· + 1) h.accno⟩

end accessed

/-- An access: at its last tick the phase's action fires on a state that is still `e`. -/
theorem Reached.access {s e t : State} {k : Nat} {ph : Phase} {act : State → State} (h : Reached s k e t)
    (hat : t.AtAccess ph) (hbusy : ph ≠ .idle) (htick : ∀ r : State, r.phase = ph → r.phaseTick = r.timed act)
    (hrun : e.runningFor (k + e.busLat.toNat)) :
    ∃ j r, k + e.busLat.toNat = j + 1 ∧ Later j e r
      ∧ s.run (k + e.busLat.toNat) = .next (act r).clockEdge := by
  obtain ⟨hphase, hcnt⟩ := hat
  have hlat : t.waitCnt.toNat = e.busLat.toNat := by rw [hcnt, h.later.busLat]
  obtain ⟨j, r, hj, hlater, -, hlast⟩ := h.counted hbusy htick hphase hlat (e.env.one_le_busLat e.accno) hrun
  exact ⟨j, r, hj, hlater, hlast⟩

theorem State.busWrite_of_succeeds {s : State} (h : s.busFails = false) (addr v : Byte) (k : State → State) :
    s.busWrite addr v k = k (s.stored addr v) := by
  rw [State.busWrite, h]
  rfl

theorem State.busRead_of_succeeds {s : State} (h : s.busFails = false) (addr : Byte) (k : Byte → State → State) :
    s.busRead addr k = k (s.peek addr) s.countAccess := by
  rw [State.busRead, h]
  rfl

theorem runningFor_mono {s : State} {m n : Nat} (h : s.runningFor n) (hle : m ≤ n) : s.runningFor m :=
  ⟨h.1, fun j hj => h.2 j (Nat.lt_of_lt_of_le hj hle)⟩

theorem State.latencies_mono (s : State) {m n : Nat} (h : m ≤ n) : s.latencies m ≤ s.latencies n := by
  induction h with
  | refl => exact Nat.le_refl _
  | step _ ih => exact Nat.le_trans ih (Nat.le_add_right _ _)

section pieces
variable {s e t : State} {i n : Nat} {ph next : Phase} {act : State → State}

/-- The access numbered `i` of a command that runs for `n` ticks. -/
theorem Reached.accessNo (h : Reached s (1 + s.latencies i) e t) (hacc : Accessed s i e) (hat : t.AtAccess ph)
    (hbusy : ph ≠ .idle) (htick : ∀ r : State, r.phase = ph → r.phaseTick = r.timed act) (hrun : s.runningFor n)
    (hle : 1 + s.latencies (i + 1) ≤ n) :
    ∃ j r, 1 + s.latencies (i + 1) = j + 1 ∧ Later j e r
      ∧ s.run (1 + s.latencies (i + 1)) = .next (act r).clockEdge := by
  rw [hacc.latencies_succ, ← Nat.add_assoc] at hle ⊢
  exact h.access hat hbusy htick (hacc.runningFor (runningFor_mono hrun hle))

/-- A successful write after which another access begins. -/
theorem Reached.write {addr v : Byte} (h : Reached s (1 + s.latencies i) e t) (hacc : Accessed s i e)
    (hat : t.AtAccess ph) (hbusy : ph ≠ .idle) (htick : ∀ r : State, r.phase = ph → r.phaseTick = r.timed act)
    (hact : ∀ j r, Later j e r → act r = r.busWrite addr v fun u => u.enterBus next)
    (hok : e.busFails = false) (hrun : s.runningFor n) (hle : 1 + s.latencies (i + 1) ≤ n) :
    ∃ u, Reached s (1 + s.latencies (i + 1)) (e.stored addr v) u ∧ u.AtAccess next := by
  obtain ⟨j, r, hj, hlater, hlast⟩ := h.accessNo hacc hat hbusy htick hrun hle
  rw [hact j r hlater, State.busWrite_of_succeeds (hlater.busFails.trans hok)] at hlast
  refine ⟨_, ⟨hlast, ?_⟩, State.atAccess_enterBus (r.stored addr v) next⟩
  exact hj ▸ ((hlater.stored addr v).enterBus next).clockEdge

end pieces

/-- The state once a command that starts an access is accepted: the word latched and the operands in place. -/
def State.started (s : State) (d : Drv) : State := { s with cmd := s.inputs.cmd, drv := d }

section started
variable (s : State) (d : Drv)

@[simp] theorem State.started_params : (s.started d).params = s.params := rfl
@[simp] theorem State.started_env : (s.started d).env = s.env := rfl
@[simp] theorem State.started_time : (s.started d).time = s.time := rfl
@[simp] theorem State.started_cmd : (s.started d).cmd = s.inputs.cmd := rfl
@[simp] theorem State.started_accno : (s.started d).accno = s.accno := rfl
@[simp] theorem State.started_drv : (s.started d).drv = d := rfl
@[simp] theorem State.started_ctl : (s.started d).ctl = s.ctl := rfl
@[simp] theorem State.started_seq : (s.started d).seq = s.seq := rfl

end started

/-- The first tick of such a command. -/
theorem reached_of_presents {s : State} {i : Instr} {d : Drv} {ph : Phase} (hrun : s.running) (hpres : s.presents i)
    (hexec : exec i (s.dividerTick.latch s.inputs.cmd) =
      .next (State.enterBus { s.dividerTick.latch s.inputs.cmd with drv := d } ph)) :
    ∃ t, Reached s (1 + s.latencies 0) (s.started d) t ∧ t.AtAccess ph := by
  have hstep := step_running hrun ((State.commandTick_of_presents (State.presents_dividerTick.2 hpres)).trans hexec)
  have hnow : Later 0 (s.started d) { s.dividerTick.latch s.inputs.cmd with drv := d } :=
    ((Later.refl (s.started d)).dividerTick.withPhase s.phase s.waitCnt _ :)
  exact ⟨_, ⟨(s.run_succ 0 hstep).trans (State.run_zero _), (hnow.enterBus ph).clockEdge⟩,
    State.atAccess_enterBus _ ph⟩

theorem accessed_started (s : State) (d : Drv) : Accessed s 0 (s.started d) := ⟨rfl, rfl, rfl⟩

end Sys2Proof.Machine
end

section
/-! PROOFS. The channel commands from acceptance to answer (40_pwm_driver.md R130 to R139). -/

namespace Sys2Proof.Machine

open Sys2Proof

/-- The operands of a channel command, in place (R130). -/
def channelDrv (s : State) (ch : BitVec 8) (off on : BitVec 16) : Drv :=
  { s.drv with
    waddr := chBase s.params ch.toNat
    wdata0 := (split16 on).1, wdata1 := (split16 on).2
    wdata2 := (split16 off).1, wdata3 := (split16 off).2 }

/-- The three commands are one, once SETSERVO's pulse is converted (R133, R135). -/
theorem exec_channel {s : State} {i : Instr} {ch : BitVec 8} {off on : BitVec 16}
    (hi : i = .setpwm ch off on ∨ (i = .setduty ch off ∧ on = 0)
      ∨ ∃ us : BitVec 16, i = .setservo ch us ∧ off.toNat = us.toNat * 4096 / 20000 ∧ on = 0)
    (hch : ch.toNat < s.params.nch) :
    exec i s = .next (State.enterBus { s with drv := channelDrv s ch off on } .spW0) := by
  have hprog : programChannel ch off on s = .next (State.enterBus { s with drv := channelDrv s ch off on } .spW0) :=
    if_pos hch
  obtain rfl | ⟨rfl, rfl⟩ | ⟨us, rfl, hus, rfl⟩ := hi
  · exact hprog
  · exact hprog
  · have hoff : off = servoSteps us := BitVec.eq_of_toNat_eq (by
      rw [hus, servoSteps, BitVec.toNat_ofNat, Config.counterSteps, Config.servoPeriodUs]
      omega)
    exact hoff ▸ hprog

/-- The state after the four writes of a channel command from the address `a` on (R131). -/
def State.programmed (s : State) (a : Byte) (on off : BitVec 16) : State :=
  (((s.stored a (split16 on).1).stored (a + 1) (split16 on).2).stored (a + 2) (split16 off).1).stored (a + 3)
    (split16 off).2

section programmed
variable (s : State) (a : Byte) (on off : BitVec 16)

@[simp] theorem State.programmed_params : (s.programmed a on off).params = s.params := by simp [State.programmed]
@[simp] theorem State.programmed_time : (s.programmed a on off).time = s.time := by simp [State.programmed]
@[simp] theorem State.programmed_cmd : (s.programmed a on off).cmd = s.cmd := by simp [State.programmed]
@[simp] theorem State.programmed_accno : (s.programmed a on off).accno = s.accno + 4 := by simp [State.programmed]
@[simp] theorem State.programmed_drv : (s.programmed a on off).drv = s.drv := by simp [State.programmed]
@[simp] theorem State.programmed_seq : (s.programmed a on off).seq = s.seq := by simp [State.programmed]

end programmed

/-- A channel command whose four accesses succeed, from its acceptance to its answer. -/
theorem channel_run {s : State} {i : Instr} {ch : BitVec 8} {off on : BitVec 16}
    (hi : i = .setpwm ch off on ∨ (i = .setduty ch off ∧ on = 0)
      ∨ ∃ us : BitVec 16, i = .setservo ch us ∧ off.toNat = us.toNat * 4096 / 20000 ∧ on = 0)
    (hpres : s.presents i) (hch : ch.toNat < s.params.nch) (hrun : s.runningFor (1 + s.latencies 4))
    (hsucc : s.accessesSucceed 4) :
    ∃ t, Reached s (1 + s.latencies 4)
        ((s.started (channelDrv s ch off on)).programmed (chBase s.params ch.toNat) on off) t
      ∧ t.phase = .idle ∧ t.resp = ⟨true, 0, 0, 0, 0⟩ := by
  have hle {m : Nat} (hm : m ≤ 4) : 1 + s.latencies m ≤ 1 + s.latencies 4 :=
    Nat.add_le_add_left (s.latencies_mono hm) 1
  have hacc0 := accessed_started s (channelDrv s ch off on)
  have hacc1 := hacc0.stored (chBase s.params ch.toNat) (split16 on).1
  have hacc2 := hacc1.stored (chBase s.params ch.toNat + 1) (split16 on).2
  have hacc3 := hacc2.stored (chBase s.params ch.toNat + 2) (split16 off).1
  obtain ⟨t0, h0, hat0⟩ := reached_of_presents (d := channelDrv s ch off on) ⟨hrun.1, hrun.2 0 (by omega)⟩ hpres
    (exec_channel (s := s.dividerTick.latch s.inputs.cmd) hi hch)
  obtain ⟨t1, h1, hat1⟩ := h0.write hacc0 hat0 (by decide) (fun r hr => by rw [State.phaseTick, hr])
    (fun j r hr => by rw [spW0Act, hr.drv]) (hacc0.busFails hsucc (by decide)) hrun (hle (by decide))
  obtain ⟨t2, h2, hat2⟩ := h1.write hacc1 hat1 (by decide) (fun r hr => by rw [State.phaseTick, hr])
    (fun j r hr => by rw [spW1Act, hr.drv]) (hacc1.busFails hsucc (by decide)) hrun (hle (by decide))
  obtain ⟨t3, h3, hat3⟩ := h2.write hacc2 hat2 (by decide) (fun r hr => by rw [State.phaseTick, hr])
    (fun j r hr => by rw [spW2Act, hr.drv]) (hacc2.busFails hsucc (by decide)) hrun (hle (by decide))
  obtain ⟨j, r, hj, hlater, hlast⟩ := h3.accessNo hacc3 hat3 (by decide) (fun r hr => by rw [State.phaseTick, hr])
    hrun (hle (by decide))
  rw [spW3Act, State.busWrite_of_succeeds (hlater.busFails.trans (hacc3.busFails hsucc (by decide))), hlater.drv]
    at hlast
  exact ⟨_, ⟨hlast, hj ▸ ((hlater.stored _ _).withPhase .idle r.waitCnt _).clockEdge⟩, rfl, rfl⟩

/-- A register write at a channel register stores the byte and touches nothing else (R161). -/
theorem Ctl.poke_channelReg {p : Config.Params} {addr : Byte} (hok : paramsOk p = true)
    (hch : isChannelReg p addr = true) (c : Ctl) (v : Byte) : c.poke p addr v = c.writeChannel addr v := by
  obtain ⟨-, hmode, hpre, -⟩ := paramMap_of_paramsOk hok
  obtain ⟨rfl, -⟩ | ⟨-, rfl, -⟩ | ⟨-, -, -, heq⟩ | ⟨-, -, hnot, -⟩ := Ctl.poke_cases p c addr v
  · exact absurd hch (by simp [hmode])
  · exact absurd hch (by simp [hpre])
  · exact heq
  · exact absurd hch (by simp [hnot])

/-- The codec loses nothing (R120, R121). -/
theorem join16_split16 (v : BitVec 16) : join16 (split16 v).1 (split16 v).2 = v := by
  ext i hi
  simp only [join16, split16]
  interval_cases i <;> simp

/-- Four bytes written at four addresses in a row are read back. -/
theorem Memory.read_four_writes {m : Memory} (hwf : m.wf = true) {a : Nat} (ha : a + 3 < 256) (b0 b1 b2 b3 : Byte) :
    let m' := (((m.write a b0).write (a + 1) b1).write (a + 2) b2).write (a + 3) b3
    m'.read a = b0 ∧ m'.read (a + 1) = b1 ∧ m'.read (a + 2) = b2 ∧ m'.read (a + 3) = b3 := by
  have hwf0 := Memory.wf_write (v := b0) hwf (show a < 256 by omega)
  have hwf1 := Memory.wf_write (v := b1) hwf0 (show a + 1 < 256 by omega)
  have hwf2 := Memory.wf_write (v := b2) hwf1 (show a + 2 < 256 by omega)
  refine ⟨?_, ?_, ?_, Memory.read_write_same hwf2⟩
  · rw [Memory.read_write_other (by omega), Memory.read_write_other (by omega), Memory.read_write_other (by omega),
      Memory.read_write_same hwf]
  · rw [Memory.read_write_other (by omega), Memory.read_write_other (by omega), Memory.read_write_same hwf0]
  · rw [Memory.read_write_other (by omega), Memory.read_write_same hwf1]

theorem chBase_toNat {p : Config.Params} {ch : Nat} (hok : paramsOk p = true) (hch : ch < p.nch) :
    (chBase p ch).toNat = p.regChBase.toNat + 4 * ch := by
  simpa using chBase_add_toNat hok hch (k := 0) (by decide)

section programmed
variable {s : State} {ch : Nat} (hok : paramsOk s.params = true) (hch : ch < s.params.nch) (on off : BitVec 16)
include hok hch

/-- The four bytes of a channel command are in its four registers, and the controller is otherwise as before. -/
theorem State.programmed_ctl : (s.programmed (chBase s.params ch) on off).ctl = { s.ctl with
    chreg := (((s.ctl.chreg.write (chBase s.params ch).toNat (split16 on).1).write
      ((chBase s.params ch).toNat + 1) (split16 on).2).write
      ((chBase s.params ch).toNat + 2) (split16 off).1).write ((chBase s.params ch).toNat + 3) (split16 off).2 } := by
  obtain ⟨hreg0, hreg1, hreg2, hreg3⟩ := channelWrites_chBase hok hch
  have hbase := chBase_toNat hok hch
  have hnat1 : (chBase s.params ch + 1).toNat = (chBase s.params ch).toNat + 1 :=
    hbase.symm ▸ chBase_add_toNat hok hch (k := 1) (by decide)
  have hnat2 : (chBase s.params ch + 2).toNat = (chBase s.params ch).toNat + 2 :=
    hbase.symm ▸ chBase_add_toNat hok hch (k := 2) (by decide)
  have hnat3 : (chBase s.params ch + 3).toNat = (chBase s.params ch).toNat + 3 :=
    hbase.symm ▸ chBase_add_toNat hok hch (k := 3) (by decide)
  simp only [State.programmed, State.stored_ctl, State.stored_params]
  rw [Ctl.poke_channelReg hok hreg0, Ctl.poke_channelReg hok hreg1, Ctl.poke_channelReg hok hreg2,
    Ctl.poke_channelReg hok hreg3]
  simp only [Ctl.writeChannel]
  rw [hnat1, hnat2, hnat3]

/-- The channel's steps are the ones asked for (R30, R131). -/
theorem programmed_steps (hwf : s.ctl.chreg.wf = true) :
    (s.programmed (chBase s.params ch) on off).ctl.onStep s.params ch = on
      ∧ (s.programmed (chBase s.params ch) on off).ctl.offStep s.params ch = off := by
  have hfits := (paramMap_of_paramsOk hok).1
  have hlast : (chBase s.params ch).toNat + 3 < 256 := by rw [chBase_toNat hok hch]; omega
  obtain ⟨h0, h1, h2, h3⟩ :=
    Memory.read_four_writes hwf hlast (split16 on).1 (split16 on).2 (split16 off).1 (split16 off).2
  rw [State.programmed_ctl hok hch]
  exact ⟨(congrArg₂ join16 h0 h1).trans (join16_split16 on), (congrArg₂ join16 h2 h3).trans (join16_split16 off)⟩

/-- Outside the channel's four addresses the register space reads as before (R161). -/
theorem peek_programmed_other {addr : Byte}
    (hout : ¬ (s.params.regChBase.toNat + 4 * ch ≤ addr.toNat
      ∧ addr.toNat < s.params.regChBase.toNat + 4 * ch + 4)) :
    (s.programmed (chBase s.params ch) on off).peek addr = s.peek addr := by
  have hne {k : Nat} (hk : k < 4) : addr ≠ chBase s.params ch + BitVec.ofNat 8 k := fun heq => by
    rw [heq, chBase_add_toNat hok hch hk] at hout
    omega
  have hne0 : addr ≠ chBase s.params ch := by simpa using hne (k := 0) (by decide)
  have hpeek (r : State) (a v : Byte) (h : addr ≠ a) : (r.stored a v).peek addr = r.peek addr :=
    Ctl.peek_poke_other v h
  exact (hpeek _ _ _ (hne (k := 3) (by decide))).trans <| (hpeek _ _ _ (hne (k := 2) (by decide))).trans <|
    (hpeek _ _ _ (hne (k := 1) (by decide))).trans (hpeek _ _ _ hne0)

end programmed

/-- Settles O24: the four writes one by one (`channel_run`), and what they leave behind. -/
theorem channelCommandCompletes : Obligations.ChannelCommandCompletes := by
  rintro s i ch off on n hi hpres hch rfl hrun hsucc hwf
  obtain ⟨t, ⟨hreach, hlater⟩, hphase, hresp⟩ := channel_run hi hpres hch hrun hsucc
  have hctl := Ctl.eq_of_regs_eq hlater.regs
  have hdrv : t.drv = channelDrv s ch off on := by simpa using hlater.drv
  have hparams : t.params = s.params := by simpa using hlater.params
  obtain ⟨hon, hoff⟩ := programmed_steps (s := s.started (channelDrv s ch off on)) hrun.1 hch on off hwf
  have hcorrupt := congrArg Ctl.timingCorrupt
    (State.programmed_ctl (s := s.started (channelDrv s ch off on)) hrun.1 hch on off)
  refine ⟨t, hreach, hphase, hresp, ?on, ?off, fun addr hout => ?peek, by simpa using hlater.accno, ?freq, ?oldMode,
    ?pre, ?corrupt, by simpa using hlater.seq, hparams, by simpa using hlater.cmd, by simpa using hlater.time_toNat⟩
  case on => rw [hparams, hctl]; exact hon
  case off => rw [hparams, hctl]; exact hoff
  case peek =>
    rw [hlater.peek]
    exact peek_programmed_other (s := s.started (channelDrv s ch off on)) hrun.1 hch on off hout
  case freq => rw [hdrv]; rfl
  case oldMode => rw [hdrv]; rfl
  case pre => rw [hdrv]; rfl
  case corrupt => rw [hctl]; exact hcorrupt

end Sys2Proof.Machine
end

section
/-! PROOFS. CFGFREQ from acceptance to answer (40_pwm_driver.md R125, R126). -/

namespace Sys2Proof.Machine

open Sys2Proof

/-- The operands of an accepted CFGFREQ. -/
def cfgfreqDrv (s : State) (freq : BitVec 16) : Drv :=
  { s.drv with pre := BitVec.ofInt 8 (presc s.params.oscHz freq.toNat) }

/-- `CF_READ` taken: the mode byte is kept for the writes that follow. -/
def State.modeRead (s : State) : State :=
  { s.countAccess with drv := { s.drv with oldMode := s.ctl.mode } }

/-- The three writes of CFGFREQ before its settle time: sleep, prescale, the old mode. -/
def State.prescaled (s : State) : State :=
  ((s.stored s.params.regMode (sleepMode s.params s.drv.oldMode)).stored s.params.regPrescale s.drv.pre).stored
    s.params.regMode s.drv.oldMode

/-- The restart write, and `FREQ`. -/
def State.restarted (s : State) : State :=
  { s.stored s.params.regMode (restartMode s.drv.oldMode) with drv := { s.drv with freq := cmdFreq s.cmd } }

section sequence
variable (s : State)

@[simp] theorem State.modeRead_params : s.modeRead.params = s.params := rfl
@[simp] theorem State.modeRead_env : s.modeRead.env = s.env := rfl
@[simp] theorem State.modeRead_time : s.modeRead.time = s.time := rfl
@[simp] theorem State.modeRead_cmd : s.modeRead.cmd = s.cmd := rfl
@[simp] theorem State.modeRead_accno : s.modeRead.accno = s.accno + 1 := rfl
@[simp] theorem State.modeRead_drv : s.modeRead.drv = { s.drv with oldMode := s.ctl.mode } := rfl
@[simp] theorem State.modeRead_ctl : s.modeRead.ctl = s.ctl := rfl
@[simp] theorem State.modeRead_seq : s.modeRead.seq = s.seq := rfl

@[simp] theorem State.prescaled_params : s.prescaled.params = s.params := by simp [State.prescaled]
@[simp] theorem State.prescaled_env : s.prescaled.env = s.env := by simp [State.prescaled]
@[simp] theorem State.prescaled_time : s.prescaled.time = s.time := by simp [State.prescaled]
@[simp] theorem State.prescaled_cmd : s.prescaled.cmd = s.cmd := by simp [State.prescaled]
@[simp] theorem State.prescaled_accno : s.prescaled.accno = s.accno + 3 := by simp [State.prescaled]
@[simp] theorem State.prescaled_drv : s.prescaled.drv = s.drv := by simp [State.prescaled]
@[simp] theorem State.prescaled_seq : s.prescaled.seq = s.seq := by simp [State.prescaled]

@[simp] theorem State.restarted_params : s.restarted.params = s.params := rfl
@[simp] theorem State.restarted_time : s.restarted.time = s.time := rfl
@[simp] theorem State.restarted_cmd : s.restarted.cmd = s.cmd := rfl
@[simp] theorem State.restarted_accno : s.restarted.accno = s.accno + 1 := rfl
@[simp] theorem State.restarted_drv : s.restarted.drv = { s.drv with freq := cmdFreq s.cmd } := rfl
@[simp] theorem State.restarted_ctl :
    s.restarted.ctl = s.ctl.poke s.params s.params.regMode (restartMode s.drv.oldMode) := rfl
@[simp] theorem State.restarted_seq : s.restarted.seq = s.seq := rfl

end sequence

theorem Later.modeRead {k : Nat} {e t : State} (h : Later k e t) : Later k e.modeRead t.modeRead :=
  { h with
    accno := congrArg (· + 1) h.accno
    drv := by
      have hmode : t.ctl.mode = e.ctl.mode := (congrArg Ctl.mode h.regs :)
      rw [State.modeRead_drv, State.modeRead_drv, h.drv, hmode] }

theorem Later.restarted {k : Nat} {e t : State} (h : Later k e t) : Later k e.restarted t.restarted := by
  have hstored := h.stored e.params.regMode (restartMode e.drv.oldMode)
  unfold State.restarted
  rw [h.params, h.drv, h.cmd]
  exact { hstored with drv := rfl }

theorem State.peek_regMode (s : State) : s.peek s.params.regMode = s.ctl.mode := if_pos rfl

/-- `CF_READ` succeeds. -/
theorem cfReadAct_of_succeeds {s : State} (h : s.busFails = false) : cfReadAct s = s.modeRead.enterBus .cfSleep := by
  rw [cfReadAct, State.busRead_of_succeeds h, State.peek_regMode]
  rfl

/-- CFGFREQ up to its settle time. -/
theorem cfgfreq_run_to_settle {s : State} {freq : BitVec 16} {n : Nat} (hpres : s.presents (.cfgfreq freq))
    (hlo : 0 ≤ presc s.params.oscHz freq.toNat) (hhi : presc s.params.oscHz freq.toNat ≤ 255)
    (hrun : s.runningFor n) (hle : 1 + s.latencies 4 ≤ n) (hsucc : s.accessesSucceed 5) :
    ∃ t, Reached s (1 + s.latencies 4) (s.started (cfgfreqDrv s freq)).modeRead.prescaled t
      ∧ t.phase = .cfSettle ∧ t.waitCnt = s.params.settleTicks := by
  have hupto {m : Nat} (hm : m ≤ 4) : 1 + s.latencies m ≤ n :=
    Nat.le_trans (Nat.add_le_add_left (s.latencies_mono hm) 1) hle
  have hacc0 := accessed_started s (cfgfreqDrv s freq)
  have hacc1 : Accessed s 1 (s.started (cfgfreqDrv s freq)).modeRead := ⟨rfl, rfl, rfl⟩
  have hacc2 := hacc1.stored s.params.regMode (sleepMode s.params s.ctl.mode)
  have hacc3 := hacc2.stored s.params.regPrescale (cfgfreqDrv s freq).pre
  obtain ⟨t0, h0, hat0⟩ := reached_of_presents (d := cfgfreqDrv s freq) ⟨hrun.1, hrun.2 0 (by omega)⟩ hpres
    (execCfgfreq_fits (s := s.dividerTick.latch s.inputs.cmd) hlo hhi)
  obtain ⟨j, r, hj, hr, hread⟩ := h0.accessNo hacc0 hat0 (by decide) (fun r hr => by rw [State.phaseTick, hr]) hrun
    (hupto (by decide))
  rw [cfReadAct_of_succeeds (hr.busFails.trans (hacc0.busFails hsucc (by decide)))] at hread
  have h1 : Reached s (1 + s.latencies 1) (s.started (cfgfreqDrv s freq)).modeRead _ :=
    ⟨hread, hj ▸ (hr.modeRead.enterBus .cfSleep).clockEdge⟩
  obtain ⟨t2, h2, hat2⟩ := h1.write hacc1 (State.atAccess_enterBus _ _) (by decide)
    (fun r hr => by rw [State.phaseTick, hr]) (fun j r hr => by rw [cfSleepAct, hr.drv, hr.params])
    (hacc1.busFails hsucc (by decide)) hrun (hupto (by decide))
  obtain ⟨t3, h3, hat3⟩ := h2.write hacc2 hat2 (by decide) (fun r hr => by rw [State.phaseTick, hr])
    (fun j r hr => by rw [cfPrescAct, hr.drv, hr.params]) (hacc2.busFails hsucc (by decide)) hrun
    (hupto (by decide))
  obtain ⟨j, r, hj, hr, hrestore⟩ := h3.accessNo hacc3 hat3 (by decide) (fun r hr => by rw [State.phaseTick, hr]) hrun
    (hupto (by decide))
  rw [cfRestoreAct, State.busWrite_of_succeeds (hr.busFails.trans (hacc3.busFails hsucc (by decide))), hr.drv,
    hr.params] at hrestore
  exact ⟨_, ⟨hrestore, hj ▸ ((hr.stored _ _).enter .cfSettle _).clockEdge⟩, rfl,
    congrArg Config.Params.settleTicks hr.params⟩

/-- CFGFREQ from its acceptance to its last tick. -/
theorem cfgfreq_run {s : State} {freq : BitVec 16} (hpres : s.presents (.cfgfreq freq))
    (hlo : 0 ≤ presc s.params.oscHz freq.toNat) (hhi : presc s.params.oscHz freq.toNat ≤ 255)
    (hrun : s.runningFor (1 + s.latencies 5 + s.params.settleTicks.toNat)) (hsucc : s.accessesSucceed 5) :
    ∃ j r, 1 + s.latencies 5 + s.params.settleTicks.toNat = j + 1
      ∧ Later j (s.started (cfgfreqDrv s freq)).modeRead.prescaled r
      ∧ s.run (1 + s.latencies 5 + s.params.settleTicks.toNat) =
          .next (r.restarted.respondInt (r.drv.pre.setWidth 32)).clockEdge := by
  have hacc : Accessed s 4 (s.started (cfgfreqDrv s freq)).modeRead.prescaled :=
    ⟨by simp, by simp, by simp⟩
  have hlen : 1 + s.latencies 5 + s.params.settleTicks.toNat = 1 + s.latencies 4 + s.params.settleTicks.toNat
      + (s.started (cfgfreqDrv s freq)).modeRead.prescaled.busLat.toNat := by
    rw [hacc.latencies_succ]
    omega
  have hsettle : 1 ≤ s.params.settleTicks.toNat := by
    have := (ne_zero_of_paramsOk hrun.1).2.1
    bv_omega
  rw [hlen] at hrun ⊢
  obtain ⟨t, h, hphase, hcnt⟩ := cfgfreq_run_to_settle hpres hlo hhi hrun (by omega) hsucc
  obtain ⟨j, r, hj, hr, -, hlast⟩ := h.counted (by decide) (fun r hr => by rw [State.phaseTick, hr]) hphase
    (congrArg BitVec.toNat hcnt) hsettle (hacc.runningFor (runningFor_mono hrun (by omega)))
  have hreach : Reached s (1 + s.latencies 4 + s.params.settleTicks.toNat)
      (s.started (cfgfreqDrv s freq)).modeRead.prescaled _ := ⟨hlast, hj ▸ (hr.enterBus .cfRestart).clockEdge⟩
  obtain ⟨j, r, hj, hr, hlast⟩ := hreach.access (State.atAccess_enterBus _ _) (by decide)
    (fun r hr => by rw [State.phaseTick, hr]) (hacc.runningFor hrun)
  rw [cfRestartAct, State.busWrite_of_succeeds (hr.busFails.trans (hacc.busFails hsucc (by decide)))] at hlast
  exact ⟨j, r, hj, hr, hlast⟩

theorem Ctl.poke_regMode (p : Config.Params) (c : Ctl) (v : Byte) : c.poke p p.regMode v = c.writeMode v := if_pos rfl

/-- A prescale write while the oscillator is stopped (R163). -/
theorem Ctl.poke_regPrescale_asleep {p : Config.Params} {c : Ctl} (hok : paramsOk p = true) (h : c.asleep p = true)
    (v : Byte) : c.poke p p.regPrescale v = { c with prescale := v } := by
  obtain ⟨-, -, -, hdiff, -⟩ := paramMap_of_paramsOk hok
  rw [Ctl.poke, if_neg hdiff.symm, if_pos rfl, Ctl.writePrescale, if_pos h]

/-- The restart write stores the old mode, whose bit 7 was 0 (R28, R162). -/
theorem storedMode_restartMode {v : Byte} (h : v.getLsbD 7 = false) : storedMode (restartMode v) = v := by
  have hall : ∀ v : Byte, v.getLsbD 7 = false → storedMode (restartMode v) = v := by decide
  exact hall v h

theorem restartBit_restartMode (v : Byte) : restartBit (restartMode v) = true := by
  simp [restartBit, restartMode, Config.restartMask]

/-- The controller after CFGFREQ's four writes, up to its counters: only the prescale is new, because the sleep write
stops the oscillator for the prescale write, and the mode byte has no bit 7 to lose (R126, R163). -/
theorem regs_restarted_prescaled {s : State} (hok : paramsOk s.params = true) (hmode : s.drv.oldMode = s.ctl.mode)
    (hbit : s.ctl.mode.getLsbD 7 = false) :
    s.prescaled.restarted.ctl.regs = { s.ctl with prescale := s.drv.pre, psc := 0, step := 0 } := by
  have hsleep : (s.ctl.writeMode (sleepMode s.params s.drv.oldMode)).asleep s.params = true := by
    rw [Ctl.asleep, Ctl.writeMode_mode]
    exact sleepBit_storedMode_sleepMode (sleepMaskOk_of_paramsOk hok) _
  have hctl : s.prescaled.ctl =
      Ctl.writeMode { s.ctl.writeMode (sleepMode s.params s.drv.oldMode) with prescale := s.drv.pre } s.drv.oldMode := by
    simp only [State.prescaled, State.stored_ctl, State.stored_params, Ctl.poke_regMode]
    rw [Ctl.poke_regPrescale_asleep hok hsleep]
  rw [State.restarted_ctl, Ctl.poke_regMode, hctl]
  simp [Ctl.regs, hmode, storedMode_restartMode hbit]

/-- The restart write zeroes the counters, and a sound controller keeps them to the end of the tick (R162). -/
theorem restarted_counters {s : State} (hsound : s.ctl.timingCorrupt = false) (n : Nat) :
    (s.restarted.ctl.drawIfCorrupt n).psc = 0 ∧ (s.restarted.ctl.drawIfCorrupt n).step = 0 := by
  have hsound' : (s.ctl.writeMode (restartMode s.drv.oldMode)).timingCorrupt = false := by simpa using hsound
  rw [State.restarted_ctl, Ctl.poke_regMode, Ctl.drawIfCorrupt_of_sound _ n hsound', Ctl.writeMode,
    if_pos (restartBit_restartMode _)]
  exact ⟨rfl, rfl⟩

/-- A prescale that fits its register is answered as it is (R126). -/
theorem setWidth_ofInt_prescale {p : Int} (hlo : 0 ≤ p) (hhi : p ≤ 255) :
    (BitVec.ofInt 8 p).setWidth 32 = BitVec.ofInt 32 p := by
  apply BitVec.eq_of_toNat_eq
  rw [BitVec.toNat_setWidth, BitVec.toNat_ofInt, BitVec.toNat_ofInt]
  omega

/-- Settles O16: the sequence phase by phase (`cfgfreq_run`), and what its four writes leave in the controller. -/
theorem cfgfreqCompletes : Obligations.CfgfreqCompletes := by
  rintro s freq n hpres hlo hhi rfl hrun hsucc hbit
  obtain ⟨j, r, hj, hr, hlast⟩ := cfgfreq_run hpres hlo hhi hrun hsucc
  have hrdrv : r.drv = { cfgfreqDrv s freq with oldMode := s.ctl.mode } := by simpa using hr.drv
  have hfreq : cmdFreq s.inputs.cmd = freq := cmdFreq_of_decode hpres.2.2
  have hend : Later (1 + s.latencies 5 + s.params.settleTicks.toNat)
      (s.started (cfgfreqDrv s freq)).modeRead.prescaled.restarted
      (r.restarted.respondInt (r.drv.pre.setWidth 32)).clockEdge :=
    hj ▸ (hr.restarted.withPhase .idle r.waitCnt _).clockEdge
  have hregs := hend.regs.trans
    (regs_restarted_prescaled (s := (s.started (cfgfreqDrv s freq)).modeRead) hrun.1 rfl hbit)
  refine ⟨_, hlast, rfl, ?resp, ?ctl, fun hsound => ?counters, ?drv, by simpa using hend.accno, by simpa using hend.seq,
    by simpa using hend.params, by simpa using hend.cmd, by simpa using hend.time_toNat⟩
  case resp =>
    rw [State.clockEdge_resp, State.respondInt_resp, hrdrv]
    exact congrArg (Resp.mk true 0 1 0) (setWidth_ofInt_prescale hlo hhi)
  case ctl =>
    exact Ctl.eq_of_regs_eq
      (d := { s.ctl with prescale := BitVec.ofInt 8 (presc s.params.oscHz freq.toNat) }) hregs
  case counters =>
    have hkept : r.ctl.timingCorrupt = s.ctl.timingCorrupt := by
      simpa [Ctl.regs, Ctl.poke_regMode] using congrArg Ctl.timingCorrupt hregs
    exact restarted_counters (hkept.trans hsound) _
  case drv =>
    rw [hend.drv]
    simp [cfgfreqDrv, hfreq]

end Sys2Proof.Machine
end

section
/-! PROOFS. The register space over whole commands (20_memory.md R60 to R72, 60_exceptions.md R283): what an address reads
after a write to it, the raw accesses from acceptance to answer, the four writes of a channel command one by one, and
the access that fails. -/

namespace Sys2Proof.Machine

open Sys2Proof

/-! ## Acceptance -/

/-- No acceptance rule makes a register access (R41). -/
theorem Accepted.accno_eq {s u : State} {i : Instr} (h : Accepted s i u) : u.accno = s.accno := by
  cases h <;> rfl

/-- Settles O35: an acceptance answers, or prepares a later phase; the controller is the later phases' to write. -/
theorem acceptanceLeavesController : Obligations.AcceptanceLeavesController := by
  intro i s t hexec
  have hacc := accepted_of_exec hexec
  have hframe := hacc.frame
  refine ⟨hframe.ctl, fun addr => ?peek, hframe.time, hacc.accno_eq, hframe.cmd, hframe.params, hframe.env⟩
  case peek => rw [State.peek, hframe.ctl, hframe.params, State.peek]

/-! ## Reading back a register write -/

theorem Ctl.asleep_iff {p : Config.Params} {c : Ctl} : c.asleep p = true ↔ c.mode &&& p.sleepMask ≠ 0 := by
  simp [Ctl.asleep, sleepBit]

/-- What the address of a register write reads afterwards, by the register's kind (R68 to R70, R161 to R163). -/
theorem Ctl.peek_poke_same (p : Config.Params) {c : Ctl} (hwf : c.chreg.wf = true) (addr v : Byte) :
    (c.poke p addr v).peek p addr =
      if addr = p.regMode then v &&& 0x7F
      else if addr = p.regPrescale then if c.mode &&& p.sleepMask ≠ 0 then v else c.prescale
      else if isChannelReg p addr then v else 0 := by
  obtain ⟨rfl, heq⟩ | ⟨hmode, rfl, heq⟩ | ⟨hmode, hpre, hch, heq⟩ | ⟨hmode, hpre, hch, heq⟩ :=
    Ctl.poke_cases p c addr v
  · rw [heq, Ctl.peek, if_pos rfl, if_pos rfl, Ctl.writeMode_mode, storedMode]
  · rw [heq, Ctl.peek, if_neg hmode, if_neg hmode, if_pos rfl, if_pos rfl, Ctl.writePrescale]
    by_cases hsleep : c.mode &&& p.sleepMask ≠ 0
    · rw [if_pos (Ctl.asleep_iff.2 hsleep), if_pos hsleep]
    · rw [if_neg (mt Ctl.asleep_iff.1 hsleep), if_neg hsleep]
  · rw [heq, Ctl.peek, if_neg hmode, if_neg hmode, if_neg hpre, if_neg hpre, if_pos hch, if_pos hch]
    exact Memory.read_write_same hwf
  · rw [heq, Ctl.peek, if_neg hmode, if_neg hmode, if_neg hpre, if_neg hpre, hch]
    rfl

/-- Settles O45: the written address by its kind (`Ctl.peek_poke_same`), every other one as before. -/
theorem readAfterRegisterWrite : Obligations.ReadAfterRegisterWrite := by
  intro p c addr v a _ hwf
  by_cases ha : a = addr
  · subst ha
    rw [if_neg (not_not.2 rfl)]
    exact Ctl.peek_poke_same p hwf a v
  · rw [if_pos ha]
    exact Ctl.peek_poke_other v ha

/-- A channel register is neither `MODE` nor `PRESCALE`, so it reads back as written (R7, R161). -/
theorem Ctl.peek_poke_channelReg {p : Config.Params} {c : Ctl} {addr : Byte} (hok : paramsOk p = true)
    (hch : isChannelReg p addr = true) (hwf : c.chreg.wf = true) (v : Byte) : (c.poke p addr v).peek p addr = v := by
  obtain ⟨-, hmode, hpre, -⟩ := paramMap_of_paramsOk hok
  have hne {a : Byte} (ha : isChannelReg p a = false) : addr ≠ a := fun heq => by simp [heq, ha] at hch
  rw [Ctl.peek_poke_same p hwf, if_neg (hne hmode), if_neg (hne hpre), if_pos hch]

/-- A write to a channel register keeps the timing as it is (R161, R163). -/
theorem Ctl.poke_timingCorrupt_channelReg {p : Config.Params} {addr : Byte} (hok : paramsOk p = true)
    (hch : isChannelReg p addr = true) (c : Ctl) (v : Byte) : (c.poke p addr v).timingCorrupt = c.timingCorrupt := by
  rw [Ctl.poke_channelReg hok hch, Ctl.writeChannel]

/-- A tick's write to a channel register of a sound controller leaves all but the channel registers alone (R161). -/
theorem Ctl.drawIfCorrupt_poke_channelReg {p : Config.Params} {c : Ctl} {addr : Byte} (hok : paramsOk p = true)
    (hch : isChannelReg p addr = true) (hsound : c.timingCorrupt = false) (v : Byte) (n : Nat) :
    (c.poke p addr v).drawIfCorrupt n = { c with chreg := ((c.poke p addr v).drawIfCorrupt n).chreg } := by
  have hsound' := (Ctl.poke_timingCorrupt_channelReg hok hch c v).trans hsound
  rw [Ctl.drawIfCorrupt_of_sound _ n hsound', Ctl.poke_channelReg hok hch, Ctl.writeChannel]

/-- When the timing is corrupt after a register write (R163). -/
theorem Ctl.poke_timingCorrupt {p : Config.Params} (hdiff : p.regMode ≠ p.regPrescale) (c : Ctl) (addr v : Byte) :
    (c.poke p addr v).timingCorrupt =
      (c.timingCorrupt || (addr == p.regPrescale && c.mode &&& p.sleepMask == 0)) := by
  obtain ⟨rfl, heq⟩ | ⟨-, rfl, heq⟩ | ⟨-, hpre, -, heq⟩ | ⟨-, hpre, -, heq⟩ := Ctl.poke_cases p c addr v
  · simp [heq, hdiff]
  · cases hsleep : c.asleep p with
    | true =>
      have hmask : (c.mode &&& p.sleepMask == 0) = false := beq_eq_false_iff_ne.2 (Ctl.asleep_iff.1 hsleep)
      rw [heq, Ctl.writePrescale, if_pos hsleep, hmask, Bool.and_false, Bool.or_false]
    | false =>
      have hmask : (c.mode &&& p.sleepMask == 0) = true := beq_iff_eq.2 (Ctl.asleep_eq_false_iff.1 hsleep)
      rw [heq, Ctl.writePrescale, if_neg (Bool.eq_false_iff.1 hsleep), hmask, beq_self_eq_true, Bool.and_self,
        Bool.or_true]
  · simp [heq, hpre, Ctl.writeChannel]
  · simp [heq, hpre]

/-! ## REGWR and REGRD from acceptance to answer -/

/-- A command of one register access, from its acceptance to the last tick of its phase. -/
theorem singleAccess_run {s : State} {i : Instr} {d : Drv} {ph : Phase} {act : State → State} (hpres : s.presents i)
    (hexec : exec i (s.dividerTick.latch s.inputs.cmd) =
      .next (State.enterBus { s.dividerTick.latch s.inputs.cmd with drv := d } ph))
    (hbusy : ph ≠ .idle) (htick : ∀ r : State, r.phase = ph → r.phaseTick = r.timed act)
    (hrun : s.runningFor (1 + s.latencies 1)) (hsucc : s.accessesSucceed 1) :
    ∃ j r, 1 + s.latencies 1 = j + 1 ∧ Later j (s.started d) r ∧ r.busFails = false
      ∧ s.run (1 + s.latencies 1) = .next (act r).clockEdge := by
  have hacc := accessed_started s d
  obtain ⟨t, h, hat⟩ := reached_of_presents ⟨hrun.1, hrun.2 0 (by omega)⟩ hpres hexec
  obtain ⟨j, r, hj, hlater, hlast⟩ := h.accessNo hacc hat hbusy htick hrun (Nat.le_refl _)
  exact ⟨j, r, hj, hlater, hlater.busFails.trans (hacc.busFails hsucc (by decide)), hlast⟩

/-- Settles O27: the run to the write, and what one register write leaves in the controller. -/
theorem regwrCompletes : Obligations.RegwrCompletes := by
  rintro s reg byte n hpres rfl hrun hsucc hwf
  obtain ⟨j, r, hj, hr, hok, hlast⟩ :=
    singleAccess_run (d := { s.drv with waddr := reg, wdata0 := byte }) (ph := .rgWr) hpres rfl (by decide)
      (fun r hr => by rw [State.phaseTick, hr]) hrun hsucc
  rw [rgWrAct, State.busWrite_of_succeeds hok, hr.drv] at hlast
  have hend := ((hr.stored reg byte).withPhase .idle r.waitCnt ⟨true, 0, 0, 0, 0⟩).clockEdge
  refine ⟨_, hlast, rfl, rfl, ?written, fun addr hne => ?other, ?corrupt, hend.accno, hend.drv, hend.seq, hend.params⟩
  case written => exact (hend.peek reg).trans (Ctl.peek_poke_same s.params hwf reg byte)
  case other => exact (hend.peek addr).trans (Ctl.peek_poke_other byte hne)
  case corrupt =>
    obtain ⟨-, -, -, hdiff, -⟩ := paramMap_of_paramsOk hrun.1
    have hregs := congrArg Ctl.timingCorrupt hend.regs
    exact hregs.trans (Ctl.poke_timingCorrupt hdiff s.ctl reg byte)

/-- Settles O28: the run to the read, which writes nothing but the count of accesses and the answer. -/
theorem regrdCompletes : Obligations.RegrdCompletes := by
  rintro s reg n hpres rfl hrun hsucc
  obtain ⟨j, r, hj, hr, hok, hlast⟩ :=
    singleAccess_run (d := { s.drv with waddr := reg }) (ph := .rgRd) hpres rfl (by decide)
      (fun r hr => by rw [State.phaseTick, hr]) hrun hsucc
  rw [rgRdAct, State.busRead_of_succeeds hok, hr.drv] at hlast
  have hpeek (addr : Byte) : r.peek addr = s.peek addr := hr.peek addr
  refine ⟨_, hlast, rfl, ?resp, fun addr => ?peek, ?corrupt, congrArg (· + 1) hr.accno, hr.drv, hr.seq, hr.params⟩
  case resp => exact congrArg (fun v : Byte => Resp.mk true 0 1 0 (v.setWidth 32)) (hpeek reg)
  case peek => exact (Ctl.peek_drawIfCorrupt ..).trans (hpeek addr)
  case corrupt => exact (Ctl.drawIfCorrupt_timingCorrupt ..).trans (congrArg Ctl.timingCorrupt hr.regs :)

/-! ## The four writes of a channel command (R71, R131, R318) -/

/-- The writes of a channel command in flight: the phase of each, the one after it, the offset and the byte. -/
def State.channelWrites (s : State) : List (Phase × Phase × Byte × Byte) :=
  [(.spW0, .spW1, 0#8, s.drv.wdata0), (.spW1, .spW2, 1#8, s.drv.wdata1), (.spW2, .spW3, 2#8, s.drv.wdata2),
    (.spW3, .idle, 3#8, s.drv.wdata3)]

/-- A write of a channel command that is taken: one byte is stored and the next phase begins, or the command is answered
(R131). -/
theorem phaseTick_of_channelWrite {s : State} {ph next : Phase} {k b : Byte}
    (hrow : (ph, next, k, b) ∈ s.channelWrites) (hlast : s.lastTick ph) (hok : s.busFails = false) :
    ∃ n, s.phaseTick = { s.stored (s.drv.waddr + k) b with
      phase := next, waitCnt := n, resp := if ph = .spW3 then ⟨true, 0, 0, 0, 0⟩ else s.resp } := by
  obtain ⟨hphase, hcnt⟩ := hlast
  simp only [State.channelWrites, List.mem_cons, List.not_mem_nil, or_false, Prod.mk.injEq] at hrow
  obtain ⟨rfl, rfl, rfl, rfl⟩ | ⟨rfl, rfl, rfl, rfl⟩ | ⟨rfl, rfl, rfl, rfl⟩ | ⟨rfl, rfl, rfl, rfl⟩ := hrow
  · rw [State.phaseTick, hphase, BitVec.add_zero]
    exact ⟨_, (State.timed_last hcnt).trans (State.busWrite_of_succeeds hok ..)⟩
  · rw [State.phaseTick, hphase]
    exact ⟨_, (State.timed_last hcnt).trans (State.busWrite_of_succeeds hok ..)⟩
  · rw [State.phaseTick, hphase]
    exact ⟨_, (State.timed_last hcnt).trans (State.busWrite_of_succeeds hok ..)⟩
  · rw [State.phaseTick, hphase]
    exact ⟨_, (State.timed_last hcnt).trans (State.busWrite_of_succeeds hok ..)⟩

/-- The phases of a channel command are not `IDLE`. -/
theorem ne_idle_of_channelWrite {s : State} {ph next : Phase} {k b : Byte}
    (hrow : (ph, next, k, b) ∈ s.channelWrites) : ph ≠ .idle := by
  rintro rfl
  simp [State.channelWrites] at hrow

/-- Settles O25: the phase's rule stores one byte into a channel register, and such a write touches no counter. -/
theorem channelWritesOneByteAtATime : Obligations.ChannelWritesOneByteAtATime := by
  intro s ph next k b hrow hrun hlast hsucc hwf hch
  have hstep := step_busy hrun (hlast.1 ▸ ne_idle_of_channelWrite (s := s) hrow)
  obtain ⟨n, htick⟩ := phaseTick_of_channelWrite (s := s.dividerTick) hrow hlast hsucc
  rw [htick] at hstep
  have hwf' : (s.ctl.tick s.params).chreg.wf = true := by simpa using hwf
  refine ⟨_, hstep, rfl, ?written, fun addr hne => ?other, ?corrupt, fun hsound => ?ctl, rfl, rfl, rfl, rfl⟩
  case written => exact (Ctl.peek_drawIfCorrupt ..).trans (Ctl.peek_poke_channelReg hrun.1 hch hwf' b)
  case other =>
    exact (Ctl.peek_drawIfCorrupt ..).trans ((Ctl.peek_poke_other b hne).trans (Ctl.peek_tick ..))
  case corrupt =>
    exact (Ctl.drawIfCorrupt_timingCorrupt ..).trans
      ((Ctl.poke_timingCorrupt_channelReg hrun.1 hch _ b).trans (Ctl.tick_timingCorrupt ..))
  case ctl => exact Ctl.drawIfCorrupt_poke_channelReg hrun.1 hch ((Ctl.tick_timingCorrupt ..).trans hsound) b _

/-! ## A failing access (R66, R283) -/

theorem State.busWrite_of_fails {s : State} (h : s.busFails = true) (addr v : Byte) (k : State → State) :
    s.busWrite addr v k = s.countAccess.transportError := if_pos h

theorem State.busRead_of_fails {s : State} (h : s.busFails = true) (addr : Byte) (k : Byte → State → State) :
    s.busRead addr k = s.countAccess.transportError := if_pos h

/-- The two causes of a failing access (R64 to R66). -/
theorem State.busFails_iff {s : State} : s.busFails = true ↔
    s.params.devAddr ≠ s.params.pwmDevAddr ∨ (s.env.busDraw s.accno).fail = true := by
  simp [State.busFails, State.accessFails]

/-- At the last tick of an access phase a failing access is the phase's whole rule, a read's and a write's. -/
theorem phaseTick_of_busFails {s : State} (hbus : s.phase.onBus = true) (hcnt : s.waitCnt = 1)
    (hfail : s.busFails = true) : s.phaseTick = s.countAccess.transportError := by
  unfold State.phaseTick
  cases hp : s.phase with
  | cfRead => exact (State.timed_last hcnt).trans (State.busRead_of_fails hfail ..)
  | cfSleep => exact (State.timed_last hcnt).trans (State.busWrite_of_fails hfail ..)
  | cfPresc => exact (State.timed_last hcnt).trans (State.busWrite_of_fails hfail ..)
  | cfRestore => exact (State.timed_last hcnt).trans (State.busWrite_of_fails hfail ..)
  | cfRestart => exact (State.timed_last hcnt).trans (State.busWrite_of_fails hfail ..)
  | spW0 => exact (State.timed_last hcnt).trans (State.busWrite_of_fails hfail ..)
  | spW1 => exact (State.timed_last hcnt).trans (State.busWrite_of_fails hfail ..)
  | spW2 => exact (State.timed_last hcnt).trans (State.busWrite_of_fails hfail ..)
  | spW3 => exact (State.timed_last hcnt).trans (State.busWrite_of_fails hfail ..)
  | rgWr => exact (State.timed_last hcnt).trans (State.busWrite_of_fails hfail ..)
  | rgRd => exact (State.timed_last hcnt).trans (State.busRead_of_fails hfail ..)
  | _ => rw [hp] at hbus; cases hbus

/-- The access phases and how many accesses of their command come before: the information word's table (R283). -/
def accessRows : List (Phase × BitVec 32) :=
  [(.cfRead, 0), (.cfSleep, 1), (.cfPresc, 2), (.cfRestore, 3), (.cfRestart, 4), (.spW0, 0), (.spW1, 1), (.spW2, 2),
    (.spW3, 3), (.rgWr, 0), (.rgRd, 0)]

/-- The table agrees with the model's own phases and counts. -/
theorem accessRows_spec : ∀ row ∈ accessRows, row.1.onBus = true ∧ accessesBefore row.1 = row.2 := by decide

/-- Settles O44: the step is the divider, the error with the phase's own count, and the clock edge. -/
theorem transportErrorEndsCommand : Obligations.TransportErrorEndsCommand := by
  intro s ph k hrow hrun ⟨hphase, hcnt⟩ hcause
  obtain ⟨hbus, hcount⟩ := accessRows_spec _ hrow
  subst hphase
  have hbusy : s.phase ≠ .idle := fun hidle => by rw [hidle] at hbus; cases hbus
  have hstep := step_busy hrun hbusy
  rw [phaseTick_of_busFails (s := s.dividerTick) hbus hcnt (State.busFails_iff.2 hcause)] at hstep
  refine ⟨_, hstep, rfl, congrArg (Resp.mk true 3 0 0) hcount, rfl, fun addr => ?peek, ?corrupt, fun hsound => ?ctl,
    rfl, rfl⟩
  case peek => exact (Ctl.peek_drawIfCorrupt ..).trans (Ctl.peek_tick ..)
  case corrupt => exact (Ctl.drawIfCorrupt_timingCorrupt ..).trans (Ctl.tick_timingCorrupt ..)
  case ctl => exact Ctl.drawIfCorrupt_of_sound _ _ ((Ctl.tick_timingCorrupt ..).trans hsound)

end Sys2Proof.Machine
end

section
/-! PROOFS. Decoder and encoder (30_encoding.md R91 to R98): a command read back from the fields of a word that selects
its row is the decoder's answer, and its word is that very word. Then what a step makes of a word, and the response word. -/

namespace Sys2Proof

open Laws.EncodeSelectsRow (row)

/-! ## The command a word holds (R93) -/

/-- The command of the kind of `i` whose operands are the fields of the word `w` (R93). -/
def Instr.readFrom (w : Word) : Instr → Instr
  | .cfgfreq _ => .cfgfreq (fieldC16 w)
  | .bound _ => .bound (fieldC w)
  | .setpwm _ _ _ => .setpwm (fieldA w) (fieldC16 w) (fieldB w)
  | .setduty _ _ => .setduty (fieldA w) (fieldC16 w)
  | .setservo _ _ => .setservo (fieldA w) (fieldC16 w)
  | .regwr _ _ => .regwr (fieldA w) (fieldC8 w)
  | .regrd _ => .regrd (fieldA w)
  | .uscfg _ _ _ => .uscfg (fieldB w) (fieldC16 w) ((fieldA w).getLsbD 0)
  | .measure _ => .measure (fieldA w)
  | .usrel => .usrel
  | .sos _ => .sos (fieldC16 w)

@[simp] theorem fieldC16_packC64 (op a : BitVec 8) (b : BitVec 16) (c : BitVec 32) :
    fieldC16 (packC64 op a b c) = c.setWidth 16 := by
  rw [fieldC16_eq, fieldC_packC64]

@[simp] theorem fieldC8_packC64 (op a : BitVec 8) (b : BitVec 16) (c : BitVec 32) :
    fieldC8 (packC64 op a b c) = c.setWidth 8 := by
  rw [fieldC8_eq, fieldC_packC64]

/-- The operands of a command stand in the fields of its word. -/
theorem readFrom_encode (i : Instr) : i.readFrom (encode i) = i := by
  cases i <;> simp [Instr.readFrom, encode]

/-! ## Words that select a row (R93, R96) -/

open Laws in
/-- Every command's word selects its own row. -/
theorem selects_encode (i : Instr) : (row i).selects (encode i) = true := by
  cases i with
  | cfgfreq freq => exact EncodeSelectsRow.cfgfreq freq
  | bound value => exact EncodeSelectsRow.bound value
  | setpwm ch off on => exact EncodeSelectsRow.setpwm ch off on
  | setduty ch duty => exact EncodeSelectsRow.setduty ch duty
  | setservo ch pulseUs => exact EncodeSelectsRow.setservo ch pulseUs
  | regwr reg byte => exact EncodeSelectsRow.regwr reg byte
  | regrd reg => exact EncodeSelectsRow.regrd reg
  | uscfg minCm maxCm strict => exact EncodeSelectsRow.uscfg minCm maxCm strict
  | measure nsig => exact EncodeSelectsRow.measure nsig
  | usrel => exact EncodeSelectsRow.usrel
  | sos tempCk => exact EncodeSelectsRow.sos tempCk

theorem row_mem_opcodeRows (i : Instr) : row i ∈ opcodeRows := by
  cases i <;> simp [row, opcodeRows]

/-- No row masks a bit of the opcode. -/
theorem fieldOp_mask_of_mem : ∀ r ∈ opcodeRows, fieldOp r.mask = 0xFF#8 := by decide

/-- A word that selects a command's row carries the row's opcode. -/
theorem fieldOp_of_selects {i : Instr} {w : Word} (h : (row i).selects w = true) : fieldOp w = (row i).op := by
  have hmasked := ((selects_iff _ _).1 h).1
  rwa [fieldOp_mask_of_mem _ (row_mem_opcodeRows i), and_ones8] at hmasked

/-- The decoder's answer to a word that selects the row of a command is the command read from the word, when that is
well-formed. -/
theorem decode_of_selects {i : Instr} {w : Word} (hsel : (row i).selects w = true)
    (hwf : (i.readFrom w).wf = true) : decode w = .ok (i.readFrom w) := by
  have hop := fieldOp_of_selects hsel
  cases i with
  | cfgfreq freq =>
    have hlegal : decodeCfgfreq w = .ok (.cfgfreq (fieldC16 w)) := if_pos hwf
    rw [row] at hsel hop
    simp [decode, OpcodeRow.checked, Instr.readFrom, hop, hsel, hlegal]
  | measure nsig =>
    have hlegal : decodeMeasure w = .ok (.measure (fieldA w)) := if_pos hwf
    rw [row] at hsel hop
    simp [decode, OpcodeRow.checked, Instr.readFrom, hop, hsel, hlegal]
  | _ =>
    rw [row] at hsel hop
    simp [decode, OpcodeRow.checked, Instr.readFrom, hop, hsel]

/-- Settles O1: the word selects the command's row, and its fields are the operands. -/
theorem decodeOfEncode : Obligations.DecodeOfEncode := by
  intro i hwf
  have hread := readFrom_encode i
  calc decode (encode i)
      = .ok (i.readFrom (encode i)) := decode_of_selects (selects_encode i) (hread.symm ▸ hwf)
    _ = .ok i := by rw [hread]

/-! ## The word of a decoded command (R97) -/

/-- Whatever a step of the decoder reads from the word `w` is the command that `w` holds, and `w` selects its row. -/
def DecodesFaithfully (w : Word) (r : Except DecodeError Instr) : Prop :=
  ∀ i, r = .ok i → (row i).selects w = true ∧ i.readFrom w = i

theorem DecodesFaithfully.error (w : Word) (e : DecodeError) : DecodesFaithfully w (.error e) := nofun

/-- One row of the decoder: the must-be-zero bits are checked before the command is read. -/
theorem DecodesFaithfully.row {w : Word} {c : Prop} [Decidable c] {r : OpcodeRow} {k b : Except DecodeError Instr}
    (hk : ∀ i, k = .ok i → Laws.EncodeSelectsRow.row i = r ∧ i.readFrom w = i) (hb : DecodesFaithfully w b) :
    DecodesFaithfully w (if c then r.checked w k else b) := by
  intro i hi
  unfold OpcodeRow.checked at hi
  split_ifs at hi with hc hsel
  · obtain ⟨rfl, hread⟩ := hk i hi
    exact ⟨hsel, hread⟩
  · exact hb i hi

theorem eq_of_decodeCfgfreq {w : Word} {i : Instr} (h : decodeCfgfreq w = .ok i) : i = .cfgfreq (fieldC16 w) := by
  unfold decodeCfgfreq at h
  split_ifs at h
  exact (Except.ok.inj h).symm

theorem eq_of_decodeMeasure {w : Word} {i : Instr} (h : decodeMeasure w = .ok i) : i = .measure (fieldA w) := by
  unfold decodeMeasure at h
  split_ifs at h
  exact (Except.ok.inj h).symm

theorem decodesFaithfully (w : Word) : DecodesFaithfully w (decode w) := by
  have hread {r : OpcodeRow} {j : Instr} (hj : row j = r ∧ j.readFrom w = j) :
      ∀ i, Except.ok (ε := DecodeError) j = .ok i → row i = r ∧ i.readFrom w = i := by
    rintro i ⟨⟩
    exact hj
  refine .row (fun i hi => ?cfgfreq) <| .row (hread ⟨rfl, rfl⟩) <| .row (hread ⟨rfl, rfl⟩) <|
    .row (hread ⟨rfl, rfl⟩) <| .row (hread ⟨rfl, rfl⟩) <| .row (hread ⟨rfl, rfl⟩) <| .row (hread ⟨rfl, rfl⟩) <|
    .row (hread ⟨rfl, rfl⟩) <| .row (fun i hi => ?measure) <| .row (hread ⟨rfl, rfl⟩) <|
    .row (hread ⟨rfl, rfl⟩) (.error w _)
  case cfgfreq => cases eq_of_decodeCfgfreq hi; exact ⟨rfl, rfl⟩
  case measure => cases eq_of_decodeMeasure hi; exact ⟨rfl, rfl⟩

/-- A word is known by its fields. -/
theorem packC64_eq_of_fields {w : Word} {op a : BitVec 8} {b : BitVec 16} {c : BitVec 32} (hop : fieldOp w = op)
    (ha : fieldA w = a) (hb : fieldB w = b) (hc : fieldC w = c) : packC64 op a b c = w := by
  rw [← hop, ← ha, ← hb, ← hc, packC64_fields]

theorem fieldC_eq_fieldC16 {w : Word} (h : fieldC w &&& 0xFFFF0000#32 = 0#32) :
    fieldC w = (fieldC16 w).setWidth 32 := by
  rw [fieldC16_eq, (high16_zero_iff _).1 h]

theorem fieldC_eq_fieldC8 {w : Word} (h : fieldC w &&& 0xFFFFFF00#32 = 0#32) :
    fieldC w = (fieldC8 w).setWidth 32 := by
  rw [fieldC8_eq, (high24_zero_iff _).1 h]

/-- A word that selects a command's row has no bit beside the opcode and the operands. -/
theorem encode_readFrom {i : Instr} {w : Word} (h : (row i).selects w = true) : encode (i.readFrom w) = w := by
  cases i with
  | cfgfreq freq =>
    obtain ⟨hop, ha, hb, hc⟩ := (selects_cfgfreq w).1 h
    exact packC64_eq_of_fields hop ha hb (fieldC_eq_fieldC16 hc)
  | bound value =>
    obtain ⟨hop, ha, hb⟩ := (selects_bound w).1 h
    exact packC64_eq_of_fields hop ha hb rfl
  | setpwm ch off on =>
    obtain ⟨hop, hc⟩ := (selects_setpwm w).1 h
    exact packC64_eq_of_fields hop rfl rfl (fieldC_eq_fieldC16 hc)
  | setduty ch duty =>
    obtain ⟨hop, hb, hc⟩ := (selects_setduty w).1 h
    exact packC64_eq_of_fields hop rfl hb (fieldC_eq_fieldC16 hc)
  | setservo ch pulseUs =>
    obtain ⟨hop, hb, hc⟩ := (selects_setservo w).1 h
    exact packC64_eq_of_fields hop rfl hb (fieldC_eq_fieldC16 hc)
  | regwr reg byte =>
    obtain ⟨hop, hb, hc⟩ := (selects_regwr w).1 h
    exact packC64_eq_of_fields hop rfl hb (fieldC_eq_fieldC8 hc)
  | regrd reg =>
    obtain ⟨hop, hb, hc⟩ := (selects_regrd w).1 h
    exact packC64_eq_of_fields hop rfl hb hc
  | uscfg minCm maxCm strict =>
    obtain ⟨hop, ha, hc⟩ := (selects_uscfg w).1 h
    exact packC64_eq_of_fields hop ((high7_zero_iff _).1 ha).symm rfl (fieldC_eq_fieldC16 hc)
  | measure nsig =>
    obtain ⟨hop, hb, hc⟩ := (selects_measure w).1 h
    exact packC64_eq_of_fields hop rfl hb hc
  | usrel =>
    obtain ⟨hop, ha, hb, hc⟩ := (selects_usrel w).1 h
    exact packC64_eq_of_fields hop ha hb hc
  | sos tempCk =>
    obtain ⟨hop, ha, hb, hc⟩ := (selects_sos w).1 h
    exact packC64_eq_of_fields hop ha hb (fieldC_eq_fieldC16 hc)

/-- Settles O2: the decoded command is the one read from the word, and the row's mask leaves no other bit. -/
theorem encodeOfDecode : Obligations.EncodeOfDecode := by
  intro w i hdec
  obtain ⟨hsel, hread⟩ := decodesFaithfully w i hdec
  refine ⟨(Machine.decodesLegally w i hdec).1, ?_⟩
  calc encode i
      = encode (i.readFrom w) := by rw [hread]
    _ = w := encode_readFrom hsel

end Sys2Proof

namespace Sys2Proof.Machine

open Sys2Proof

/-! ## Illegal words and steps that go on (R97, R98) -/

/-- The rule of a tick at which the host presents a word that the decoder rejects: the latch and the error (R98). -/
theorem State.commandTick_of_illegal {s : State} {e : DecodeError} (hidle : s.phase = .idle)
    (hvalid : s.inputs.cmdValid = true) (hdec : decode s.inputs.cmd = .error e) :
    s.commandTick = .next ((s.latch s.inputs.cmd).raise .illegalCommand 0) := by
  simp only [State.commandTick, (s.accepts_iff).2 ⟨hidle, hvalid⟩, if_true, State.accept, hdec]

/-- Settles O5: the tick is the divider, the latch, the error and the clock edge; the phase was `IDLE` already. -/
theorem illegalWordAnswered : Obligations.IllegalWordAnswered := by
  intro s e hrun hidle hvalid hdec
  have hrule : s.dividerTick.commandTick = .next ((s.dividerTick.latch s.inputs.cmd).raise .illegalCommand 0) :=
    State.commandTick_of_illegal (s := s.dividerTick) hidle hvalid hdec
  rw [step_running hrun hrule, hidle]
  rfl

/-- Settles O7: a legal parameter set leaves a reset or a tick, and the rule of a tick always goes on. -/
theorem stepGoesOn : Obligations.StepGoesOn := by
  intro s hok
  cases hrst : s.inputs.rst with
  | true => exact ⟨s.resetTick, by rw [step, if_pos hok, if_pos hrst]⟩
  | false =>
    obtain ⟨u, hu⟩ := s.dividerTick.commandTick_next
    exact ⟨u.clockEdge, step_running ⟨hok, hrst⟩ hu⟩

/-! ## The response word (R94) and the worked words (R101) -/

/-- A response word has the format of a command word, its exponent in the upper byte of `b` and nothing below it. -/
theorem Resp.word_eq_packC64 (r : Resp) :
    r.word = packC64 r.rstat r.rkind (r.rexp.setWidth 16 <<< 8) r.rval := by
  have hexp : (r.rexp.setWidth 16 <<< 8).setWidth 64 <<< 32 = r.rexp.setWidth 64 <<< 40 := by
    ext j hj
    interval_cases j <;> simp
  rw [packC64, hexp, Resp.word]

/-- A byte of the field `b` is a byte of the word. -/
theorem extractLsb'_fieldB (w : Word) {k : Nat} (hk : k ≤ 8) :
    (fieldB w).extractLsb' k 8 = w.extractLsb' (32 + k) 8 := by
  ext j hj
  have hin : k + j < 16 := by omega
  simp [fieldB, hin, Nat.add_assoc]

/-- The response fields, in the bits R94 gives; the exponent shares the field `b` with the zero byte. -/
theorem Resp.word_fields (r : Resp) : r.word.extractLsb' 56 8 = r.rstat ∧ r.word.extractLsb' 48 8 = r.rkind
    ∧ r.word.extractLsb' 40 8 = r.rexp ∧ r.word.extractLsb' 32 8 = 0 ∧ r.word.extractLsb' 0 32 = r.rval := by
  rw [Resp.word_eq_packC64]
  refine ⟨fieldOp_packC64 .., fieldA_packC64 .., ?exponent, ?zero, fieldC_packC64 ..⟩
  case exponent =>
    rw [← extractLsb'_fieldB _ (k := 8) (by decide), fieldB_packC64]
    ext j hj
    interval_cases j <;> simp
  case zero =>
    rw [← extractLsb'_fieldB _ (k := 0) (by decide), fieldB_packC64]
    ext j hj
    interval_cases j <;> simp

/-- Settles O3: the decoder runs on each word of R101, and the response word is a packed word. -/
theorem workedEncodings : Obligations.WorkedEncodings := by
  refine ⟨?legal, ?illegal, Resp.word_fields⟩
  case legal =>
    exact ⟨by decide, by decide, by decide, by decide, by decide, by decide, by decide,
      by decide, by decide, by decide, by decide, by decide, by decide, by decide⟩
  case illegal =>
    simp only [List.forall_mem_cons]
    exact ⟨⟨.unusedOpcode, by decide⟩, ⟨.freqZero, by decide⟩, ⟨.reservedBits, by decide⟩, ⟨.nsigRange, by decide⟩,
      ⟨.nsigRange, by decide⟩, ⟨.reservedBits, by decide⟩, ⟨.reservedBits, by decide⟩, nofun⟩

end Sys2Proof.Machine
end

section
/-! PROOFS. The PWM driver's own arithmetic (40_pwm_driver.md R120 to R138): the prescale, the clamp of BOUND, the
register codec, the servo conversion, the acceptance of the channel and register commands, and the high steps of a cycle
(41_frequency_divider.md R167, R168). -/

namespace Sys2Proof.Machine

open Sys2Proof

/-! ## The prescale (R123, R124) -/

/-- A prescale is reached when the clock is at least half a unit below it, so a tie goes up. -/
theorem le_presc_iff {oscHz f : Nat} (hf : 1 ≤ f) (k : Int) :
    k ≤ presc oscHz f ↔ (2 * k + 1) * (4096 * f) ≤ 2 * oscHz := by
  have hpos : (0 : Int) < 2 * (4096 * f) := by omega
  have hval : presc oscHz f = (2 * oscHz + 4096 * f : Int) / (2 * (4096 * f)) - 1 := by
    simp [presc, roundHalfUp, Config.counterSteps]
  rw [hval, le_sub_iff_add_le, Int.le_ediv_iff_mul_le hpos]
  constructor <;> intro h <;> linarith

/-- Settles O12: the prescale reaches itself, and not the next integer. -/
theorem prescaleIsNearest : Obligations.PrescaleIsNearest := by
  intro oscHz f hf
  have hlow := (le_presc_iff hf (presc oscHz f)).1 le_rfl
  have hhigh := mt (le_presc_iff hf (presc oscHz f + 1)).2 (Int.not_le.2 (Int.lt_succ _))
  constructor <;> linarith

/-- Settles O13: 0 and 256 bound the range; twice the clock is no multiple of 4096, so no quotient is a tie. -/
theorem prescaleFactsAtDefaultClock : Obligations.PrescaleFactsAtDefaultClock := by
  refine ⟨?range, by decide, by decide, by decide, by decide, by decide, by decide, ?noTie, by decide⟩
  case range =>
    intro f hf
    have hfits : presc 25000000 f ≤ 255 ↔ ¬ 256 ≤ presc 25000000 f := by omega
    rw [hfits, le_presc_iff hf, le_presc_iff hf]
    omega
  case noTie =>
    intro f k _ htie
    have hdvd : 4096 ∣ 2 * 25000000 := ⟨(2 * k + 1) * f, by rw [htie]; ring⟩
    exact absurd hdvd (by decide)

/-! ## BOUND (R128, R129) -/

/-- The clamped magnitude (R128). -/
def clamped (p : Config.Params) (v : BitVec 32) : BitVec 32 := BitVec.ofNat 32 (min (magnitude v) (maxBits p))

theorem execBound_nonstrict {s : State} (h : s.params.pwmStrict = false) (v : BitVec 32) :
    exec (.bound v) s = .next (s.respondInt (clamped s.params v)) :=
  if_neg (by simp [h])

theorem execBound_refused {s : State} (h : s.params.pwmStrict = true) {v : BitVec 32}
    (hv : v.toInt < 0 ∨ maxBits s.params < magnitude v) :
    exec (.bound v) s = .next (s.raise .rangeError (BitVec.ofNat 32 (magnitude v))) :=
  if_pos (by simpa [h] using hv)

theorem execBound_inRange {s : State} {v : BitVec 32} (hv : ¬ (v.toInt < 0 ∨ maxBits s.params < magnitude v)) :
    exec (.bound v) s = .next (s.respondInt (BitVec.ofNat 32 (magnitude v))) := by
  have hmin : min (magnitude v) (maxBits s.params) = magnitude v := by omega
  have h : exec (.bound v) s = .next (s.respondInt (clamped s.params v)) :=
    if_neg (by simpa using fun _ => hv)
  rw [h, clamped, hmin]

/-- Settles O18, by the strictness and then by the range check of strict mode. -/
theorem boundResult : Obligations.BoundResult := by
  intro s v
  cases hstrict : s.params.pwmStrict with
  | false => exact execBound_nonstrict hstrict v
  | true =>
    rw [if_neg (by decide)]
    split
    · next hv => exact execBound_refused hstrict hv
    · next hv => exact execBound_inRange hv

/-- The most negative operand is its own negation, so its magnitude is no exception. -/
theorem magnitude_neg (v : BitVec 32) : magnitude (-v) = magnitude v := by
  by_cases hmin : v = BitVec.intMin 32
  · rw [hmin, BitVec.neg_intMin]
  · rw [magnitude, BitVec.toInt_neg_of_ne_intMin hmin, Int.natAbs_neg, magnitude]

theorem magnitude_ofNat {n : Nat} (h : n < 2 ^ 31) : magnitude (BitVec.ofNat 32 n) = n := by
  rw [magnitude, BitVec.toInt_ofNat']
  simp only [Int.bmod]
  omega

theorem maxBits_lt {p : Config.Params} (hres : p.res ≤ 16) : maxBits p < 2 ^ 16 := by
  have hle : 2 ^ p.res ≤ 2 ^ 16 := Nat.pow_le_pow_right (by decide) hres
  have hpos : 0 < 2 ^ p.res := Nat.two_pow_pos _
  rw [maxBits]
  omega

theorem clamped_toNat {p : Config.Params} (hres : p.res ≤ 16) (v : BitVec 32) :
    (clamped p v).toNat = min (magnitude v) (maxBits p) := by
  have hmax := maxBits_lt hres
  rw [clamped, BitVec.toNat_ofNat]
  omega

/-- From `MAX_BITS` on the clamp answers `MAX_BITS`. -/
theorem clamped_of_maxBits_le {p : Config.Params} {v : BitVec 32} (h : maxBits p ≤ magnitude v) :
    clamped p v = BitVec.ofNat 32 (maxBits p) := by
  rw [clamped, Nat.min_eq_right h]

/-- Settles O19: the function is the clamped magnitude. -/
theorem boundLaws : Obligations.BoundLaws := by
  intro s hstrict _ hres
  have hmax := maxBits_lt hres
  have hsucc : 2 ^ s.params.res = maxBits s.params + 1 := (Nat.sub_add_cancel Nat.one_le_two_pow).symm
  refine ⟨clamped s.params, execBound_nonstrict hstrict, ?bounded, ?even, ?atMax, ?aboveMax, ?zero, ?mostNegative, ?full⟩
  case bounded => exact fun v => clamped_toNat hres v ▸ Nat.min_le_right ..
  case even => intro d _; rw [clamped, magnitude_neg, clamped]
  case atMax => exact clamped_of_maxBits_le (magnitude_ofNat (n := maxBits s.params) (by omega)).ge
  case aboveMax => exact clamped_of_maxBits_le (by rw [magnitude_ofNat] <;> omega)
  case zero => rw [clamped, show magnitude 0 = 0 by decide, Nat.zero_min]; rfl
  case mostNegative => exact clamped_of_maxBits_le (by rw [show magnitude 0x80000000 = 2 ^ 31 by decide]; omega)
  case full => intro h; rw [h]; rfl

/-! ## The register codec and the servo conversion (R120, R121, R135) -/

theorem split16_fst (v : BitVec 16) : (split16 v).1 = v.setWidth 8 :=
  (BitVec.setWidth_eq_extractLsb' (by decide)).symm

theorem split16_snd (v : BitVec 16) : (split16 v).2 = (v >>> 8).setWidth 8 := by
  ext j hj
  simp [split16]

theorem join16_eq_append (l h : Byte) : join16 l h = h ++ l := by
  rw [join16, BitVec.append_def, BitVec.shiftLeftZeroExtend_eq, BitVec.setWidth'_eq, BitVec.or_comm]

theorem split16_join16 (l h : Byte) : split16 (join16 l h) = (l, h) := by
  rw [join16_eq_append, split16]
  exact Prod.ext (BitVec.extractLsb'_append_eq_right) (BitVec.extractLsb'_append_eq_left)

/-- Settles O20: the bytes of a step are its remainder and its quotient by 256. -/
theorem splitAndJoinAreInverse : Obligations.SplitAndJoinAreInverse := by
  refine ⟨fun v => ⟨?low, ?high, join16_split16 v⟩, fun l h => ⟨split16_join16 l h, join16_eq_append l h, rfl⟩⟩
  case low => rw [split16_fst, BitVec.toNat_setWidth]
  case high =>
    rw [split16_snd, BitVec.toNat_setWidth, BitVec.toNat_ushiftRight, Nat.shiftRight_eq_div_pow]
    omega

theorem servoSteps_toNat (us : BitVec 16) : (servoSteps us).toNat = us.toNat * 4096 / 20000 := by
  rw [servoSteps, BitVec.toNat_ofNat, Config.counterSteps, Config.servoPeriodUs]
  omega

/-- Settles O21: 65535 microseconds are 13421 steps, so the conversion fits its 16 bits. -/
theorem servoConversionIsExact : Obligations.ServoConversionIsExact := by
  intro us
  rw [servoSteps_toNat]
  omega

/-! ## The acceptance of the channel and register commands (R130, R133, R135, R137, R138) -/

/-- Settles O22: the three commands share one acceptance rule, and the codec's bytes are the shifts of R120. -/
theorem channelCommandsAccepted : Obligations.ChannelCommandsAccepted := by
  intro s i ch off on hi hch
  rw [exec_channel hi hch, channelDrv, split16_fst, split16_snd, split16_fst, split16_snd]
  rfl

/-- Settles O26: neither acceptance rule has a condition; entering the access sets the phase and its latency. -/
theorem rawAccessAccepted : Obligations.RawAccessAccepted := fun _ _ _ => ⟨rfl, rfl⟩

/-! ## The high steps of a cycle (R134, R167, R168) -/

/-- Whether a step lies in an interval of steps that does not wrap. -/
def inInterval (a b step : Nat) : Bool := a ≤ step && step < b

theorem countP_inInterval {a b : Nat} (hab : a ≤ b) (n : Nat) :
    (List.range n).countP (inInterval a b) = min b n - min a n := by
  induction n with
  | zero => simp
  | succ n ih =>
    have hstep : inInterval a b n = true ↔ a ≤ n ∧ n < b := by simp [inInterval]
    rw [List.range_succ, List.countP_append, ih, List.countP_singleton, if_congr hstep rfl rfl]
    split <;> omega

/-- The comparator is high on the interval from the on step to the off step. -/
theorem comparator_of_lt {on off : Nat} (h : on < off) : comparator on off = inInterval on off := by
  funext step
  rw [comparator, if_pos h, inInterval]

/-- A wrapping cycle is low on the interval from the off step to the on step. -/
theorem comparator_of_gt {on off : Nat} (h : off < on) (step : Nat) :
    comparator on off step = !inInterval off on step := by
  rw [comparator, if_neg h.not_gt, if_pos h, inInterval, Bool.not_and, Bool.or_comm]
  simp only [← decide_not, Nat.not_le, Nat.not_lt]

theorem comparator_self (on step : Nat) : comparator on on step = false := by simp [comparator]

/-- Settles O52, by the order of the two steps; a wrapping cycle is counted by its low steps. -/
theorem highStepsOfACycle : Obligations.HighStepsOfACycle := by
  intro on off hon hoff
  obtain hlt | rfl | hgt := Nat.lt_trichotomy on off
  · have hhigh := countP_inInterval hlt.le 4096
    rw [← comparator_of_lt hlt] at hhigh
    rw [hhigh]
    omega
  · simp [comparator_self]
  · have hlow := countP_inInterval hgt.le 4096
    have hsplit := List.length_eq_countP_add_countP (inInterval off on) (l := List.range 4096)
    simp only [List.length_range, Bool.decide_eq_false, hlow, Bool.not_eq_true] at hsplit
    simp only [comparator_of_gt hgt]
    omega

end Sys2Proof.Machine
end

section
/-! PROOFS. The frequency divider (41_frequency_divider.md R160 to R167): how long a step and a cycle last, what a tick
does to the counters, the restart, and the output comparator. -/

namespace Sys2Proof.Machine

open Sys2Proof

/-! ## The divider alone (R164, R165) -/

theorem Ctl.tick_of_asleep {p : Config.Params} {c : Ctl} (h : c.asleep p = true) : c.tick p = c := by
  simp [Ctl.tick, h]

theorem Ctl.tick_of_awake {p : Config.Params} {c : Ctl} (hawake : c.mode &&& p.sleepMask = 0)
    (hsound : c.timingCorrupt = false) : c.tick p = c.advance := by
  simp [Ctl.tick, Ctl.asleep_eq_false_iff.2 hawake, hsound]

/-- R164 in numbers. -/
theorem Ctl.advance_eq (c : Ctl) :
    c.advance = if c.prescale.toNat ≤ c.psc.toNat then
        { c with psc := 0, step := BitVec.ofNat 12 ((c.step.toNat + 1) % 4096) }
      else { c with psc := BitVec.ofNat 8 (c.psc.toNat + 1) } := by
  have hstep : BitVec.ofNat 12 ((c.step.toNat + 1) % 4096) = c.step + 1 := by bv_omega
  have hpsc : BitVec.ofNat 8 (c.psc.toNat + 1) = c.psc + 1 := by bv_omega
  rw [hstep, hpsc]
  rfl

section awake
variable {p : Config.Params} {c : Ctl} (hawake : c.mode &&& p.sleepMask = 0) (hsound : c.timingCorrupt = false)
  (hpsc : c.psc = 0)
include hawake hsound hpsc

/-- Up to `PRESCALE` advances only count `PSC` up. -/
theorem Ctl.iterate_tick_of_le_prescale {k : Nat} (hk : k ≤ c.prescale.toNat) :
    (Ctl.tick p)^[k] c = { c with psc := BitVec.ofNat 8 k } := by
  induction k with
  | zero =>
    show c = { c with psc := 0 }
    rw [← hpsc]
  | succ k ih =>
    have hval : (BitVec.ofNat 8 k).toNat = k := Nat.mod_eq_of_lt (by have := c.prescale.isLt; omega)
    have htick := Ctl.tick_of_awake (p := p) (c := { c with psc := BitVec.ofNat 8 k }) hawake hsound
    rw [Function.iterate_succ_apply', ih (by omega), htick, Ctl.advance_eq, hval, if_neg (Nat.not_le.2 hk)]

/-- A counter step lasts `PRESCALE + 1` ticks. -/
theorem Ctl.iterate_tick_step :
    (Ctl.tick p)^[c.prescale.toNat + 1] c = { c with step := c.step + 1 } := by
  have htick := Ctl.tick_of_awake (p := p) (c := { c with psc := BitVec.ofNat 8 c.prescale.toNat }) hawake hsound
  rw [Function.iterate_succ_apply', Ctl.iterate_tick_of_le_prescale hawake hsound hpsc le_rfl, htick, Ctl.advance,
    if_pos (by simp), ← hpsc]

/-- `n` steps last `n` times as long: a step leaves `PSC` at 0 again. -/
theorem Ctl.iterate_tick_steps (n : Nat) :
    (Ctl.tick p)^[(c.prescale.toNat + 1) * n] c = { c with step := c.step + BitVec.ofNat 12 n } := by
  induction n with
  | zero => simp
  | succ n ih =>
    have hnext := Ctl.iterate_tick_step (p := p) (c := { c with step := c.step + BitVec.ofNat 12 n }) hawake hsound hpsc
    rw [Nat.mul_succ, Nat.add_comm, Function.iterate_add_apply, ih]
    refine hnext.trans ?_
    rw [BitVec.ofNat_add, ← BitVec.add_assoc]
    rfl

/-- A cycle is 4096 steps, after which the 12-bit counter is back. -/
theorem Ctl.iterate_tick_cycle : (Ctl.tick p)^[4096 * (c.prescale.toNat + 1)] c = c := by
  rw [Nat.mul_comm, Ctl.iterate_tick_steps hawake hsound hpsc]
  show { c with step := c.step + 0#12 } = c
  rw [BitVec.add_zero]

end awake

/-- Settles O49: one advance in numbers, and its iterates over a step and over a cycle. -/
theorem dividerRule : Obligations.DividerRule := fun _ c hawake hsound =>
  ⟨(Ctl.tick_of_awake hawake hsound).trans c.advance_eq, Ctl.iterate_tick_step hawake hsound,
    Ctl.iterate_tick_cycle hawake hsound⟩

/-! ## Which write a tick makes (R160) -/

/-- A measurement stores to no register address. -/
theorem RangingRule.storeAddress_eq_none {s u : State} (h : RangingRule s u) : s.storeAddress = none := by
  have hnone (hph : s.phase.measuring = true) : s.storeAddress = none := by
    unfold State.storeAddress
    cases hp : s.phase <;> simp_all [Phase.measuring]
  cases h with
  | hwError hph => rcases hph with hp | hp | hp <;> exact hnone (hp ▸ rfl)
  | pulseEnd hlast => exact hnone (hlast.1 ▸ rfl)
  | rearm hlast => exact hnone (hlast.1 ▸ rfl)
  | _ hph => exact hnone (hph ▸ rfl)

/-- A write that a phase of the driver is to make is made unless it fails. -/
theorem DriverRule.ctl_of_taken {s u : State} {addr : Byte} (h : DriverRule s u)
    (haddr : s.storeAddress = some addr) (hok : s.busFails = false) :
    u.ctl = s.ctl.poke s.params addr s.storeByte := by
  cases h with
  | busError hbus hfail => exact absurd hfail (by simp [hok])
  | modeRead hlast => simp [State.storeAddress, hlast.1] at haddr
  | settle hlast => simp [State.storeAddress, hlast.1] at haddr
  | byteRead hlast => simp [State.storeAddress, hlast.1] at haddr
  | store next addr' v hnext hok' haddr' hbyte =>
    cases haddr'.symm.trans haddr
    exact hbyte ▸ rfl
  | storeLast addr' v hph hok' haddr' hbyte =>
    cases haddr'.symm.trans haddr
    exact hbyte ▸ rfl
  | restore hlast =>
    obtain rfl : s.params.regMode = addr := by simpa [State.storeAddress, hlast] using haddr
    rw [State.storeByte, hlast.1]
    rfl
  | restart hlast =>
    obtain rfl : s.params.regMode = addr := by simpa [State.storeAddress, hlast] using haddr
    rw [State.storeByte, hlast.1]
    rfl

/-- A tick makes its phase's write, unless the access fails (R65). -/
theorem TickRule.ctl_of_taken {s u : State} {addr : Byte} (h : TickRule s u) (haddr : s.storeAddress = some addr)
    (hok : s.busFails = false) : u.ctl = s.ctl.poke s.params addr s.storeByte := by
  have hbusy : s.phase ≠ .idle := fun hidle => by simp [State.storeAddress, hidle] at haddr
  cases h with
  | accept i hpres => exact absurd hpres.1 hbusy
  | illegal hidle => exact absurd hidle hbusy
  | quiet hidle => exact absurd hidle hbusy
  | busy _ hrule =>
    cases hrule with
    | wait _ hcnt =>
      rw [State.storeAddress, if_neg hcnt] at haddr
      cases haddr
    | driver h => exact h.ctl_of_taken haddr hok
    | ranging h => exact absurd (h.storeAddress_eq_none.symm.trans haddr) (by simp)

/-- A tick leaves the controller to the divider, or takes its phase's write. -/
theorem TickRule.ctl_cases {s u : State} (h : TickRule s u) :
    u.ctl = s.ctl ∨ ∃ addr, s.storeAddress = some addr ∧ s.busFails = false
      ∧ u.ctl = s.ctl.poke s.params addr s.storeByte := by
  cases h with
  | accept i _ hacc => exact .inl hacc.frame.ctl
  | illegal => exact .inl rfl
  | quiet => exact .inl rfl
  | busy _ hrule =>
    obtain heq | ⟨addr, v, haddr, rfl, hok, heq⟩ := hrule.ctl_cases
    · exact .inl heq
    · exact .inr ⟨addr, haddr, hok, heq⟩

/-! ## The counters over a tick (R160 to R165) -/

theorem Ctl.writeMode_counters_of_restart {v : Byte} (h : v.getLsbD 7 = true) (c : Ctl) :
    (c.writeMode v).psc = 0 ∧ (c.writeMode v).step = 0 := by
  rw [Ctl.writeMode, if_pos (show restartBit v = true from h)]
  exact ⟨rfl, rfl⟩

/-- A register write other than a restart leaves the counters alone. -/
theorem Ctl.poke_counters_of_no_restart {p : Config.Params} {c : Ctl} {addr v : Byte}
    (h : ¬ (addr = p.regMode ∧ v.getLsbD 7 = true)) :
    (c.poke p addr v).psc = c.psc ∧ (c.poke p addr v).step = c.step := by
  obtain ⟨hmode, heq⟩ | ⟨-, -, heq⟩ | ⟨-, -, -, heq⟩ | ⟨-, -, -, heq⟩ := Ctl.poke_cases p c addr v
  · have hbit : ¬ restartBit v = true := fun hbit => h ⟨hmode, hbit⟩
    rw [heq, Ctl.writeMode, if_neg hbit]
    exact ⟨rfl, rfl⟩
  · rw [heq, Ctl.writePrescale]
    split <;> exact ⟨rfl, rfl⟩
  · rw [heq]
    exact ⟨rfl, rfl⟩
  · rw [heq]
    exact ⟨rfl, rfl⟩

theorem TickRule.counters_of_restarts {s u : State} (h : TickRule s u) (hr : s.restarts) :
    u.ctl.psc = 0 ∧ u.ctl.step = 0 := by
  obtain ⟨haddr, hok, hbit⟩ := hr
  rw [h.ctl_of_taken haddr hok, Ctl.poke_regMode]
  exact Ctl.writeMode_counters_of_restart hbit _

theorem TickRule.counters_of_not_restarts {s u : State} (h : TickRule s u) (hr : ¬ s.restarts) :
    u.ctl.psc = s.ctl.psc ∧ u.ctl.step = s.ctl.step := by
  obtain heq | ⟨addr, haddr, hok, heq⟩ := h.ctl_cases
  · rw [heq]
    exact ⟨rfl, rfl⟩
  · rw [heq]
    exact Ctl.poke_counters_of_no_restart fun ⟨hmode, hbit⟩ => hr ⟨hmode ▸ haddr, hok, hbit⟩

/-- A running block's step is the divider, the rule of the tick and the clock edge. -/
theorem tickRule_of_step {s t : State} (hrun : s.running) (h : step s = .next t) :
    ∃ u, TickRule s.dividerTick u ∧ t = u.clockEdge := by
  obtain ⟨-, ⟨hrst, -⟩ | ⟨-, hu⟩⟩ := step_rule h
  · exact absurd hrst (by simp [hrun.2])
  · exact hu

/-- The clock edge leaves a sound controller alone; it draws the counters of a corrupt one only (R163). -/
theorem State.clockEdge_ctl_of_sound {u : State} (h : u.clockEdge.ctl.timingCorrupt = false) :
    u.clockEdge.ctl = u.ctl := by
  rw [State.clockEdge_ctl, Ctl.drawIfCorrupt_timingCorrupt] at h
  exact Ctl.drawIfCorrupt_of_sound _ _ h

/-- Settles O50: the divider comes before the rule of the tick (`tickRule_of_step`), whose write wins (R160). -/
theorem tickAdvancesDivider : Obligations.TickAdvancesDivider := by
  intro s t hrun hstep hsound
  obtain ⟨u, hu, rfl⟩ := tickRule_of_step hrun hstep
  refine ⟨fun hnone => ?noStore, fun hsound' => ?counters⟩
  case noStore =>
    have hkeep : u.ctl = s.ctl.tick s.params := by
      obtain heq | ⟨addr, haddr, -⟩ := hu.ctl_cases
      · exact heq
      · exact absurd (hnone.symm.trans haddr) (by simp)
    have hctl : u.clockEdge.ctl = s.ctl.tick s.params := by
      rw [State.clockEdge_ctl, hkeep, Ctl.drawIfCorrupt_of_sound _ _ ((Ctl.tick_timingCorrupt ..).trans hsound)]
    exact ⟨hctl, fun hsleep => hctl.trans (Ctl.tick_of_asleep (Ctl.asleep_iff.2 hsleep))⟩
  case counters =>
    rw [State.clockEdge_ctl_of_sound hsound']
    exact ⟨hu.counters_of_restarts, hu.counters_of_not_restarts⟩

/-! ## A raw mode write (R162) -/

/-- Settles O47: the write is taken as a mode write, and its counters are those of any tick (`tickAdvancesDivider`). -/
theorem restartZeroesCounters : Obligations.RestartZeroesCounters := by
  intro s t hrun hlast hwaddr hok hstep
  have haddr : s.storeAddress = some s.params.regMode := by simp [State.storeAddress, hlast, hwaddr]
  have hbyte : s.storeByte = s.drv.wdata0 := by simp [State.storeByte, hlast]
  have hctl : ∃ n, t.ctl = ((s.ctl.tick s.params).writeMode s.drv.wdata0).drawIfCorrupt n := by
    obtain ⟨u, hu, rfl⟩ := tickRule_of_step hrun hstep
    have htaken := hu.ctl_of_taken (s := s.dividerTick) haddr hok
    refine ⟨_, (State.clockEdge_ctl u).trans (congrArg _ (htaken.trans ?_))⟩
    exact (Ctl.poke_regMode ..).trans (congrArg _ hbyte)
  obtain ⟨n, hctl⟩ := hctl
  have hcorrupt : t.ctl.timingCorrupt = s.ctl.timingCorrupt := by simp [hctl]
  have hcounters (hsound : s.ctl.timingCorrupt = false) :=
    (tickAdvancesDivider s t hrun hstep hsound).2 (hcorrupt.trans hsound)
  refine ⟨by simp [hctl, storedMode], fun hsound hbit => ?restart, fun hsound hbit => ?leave⟩
  case restart => exact (hcounters hsound).1 ⟨haddr, hok, hbyte ▸ hbit⟩
  case leave => exact (hcounters hsound).2 fun ⟨_, _, hset⟩ =>
    Bool.noConfusion (hbit.symm.trans (hbyte ▸ hset))

/-! ## The output comparator (R167, R168) -/

theorem comparator_iff (on off step : Nat) :
    comparator on off step = true ↔
      (on < off ∧ on ≤ step ∧ step < off) ∨ (off < on ∧ (on ≤ step ∨ step < off)) := by
  obtain hlt | rfl | hgt := Nat.lt_trichotomy on off
  · simp [comparator, hlt, hlt.not_gt]
  · simp [comparator]
  · simp [comparator, hgt, hgt.not_gt]

/-- On in-range steps of a sound controller nothing is drawn: the output is the comparator's. -/
theorem State.pwmOut_eq_comparator {s : State} {ch : Nat} (hsound : s.ctl.timingCorrupt = false)
    (hon : (s.ctl.onStep s.params ch).toNat ≤ 4095) (hoff : (s.ctl.offStep s.params ch).toNat ≤ 4095) :
    s.pwmOut ch =
      comparator (s.ctl.onStep s.params ch).toNat (s.ctl.offStep s.params ch).toNat s.ctl.step.toNat := by
  have hinRange {n : Nat} (h : n ≤ 4095) : ¬ Config.counterSteps ≤ n := Nat.not_le.2 (Nat.lt_succ_of_le h)
  simp [State.pwmOut, hsound, hinRange hon, hinRange hoff]

/-- Settles O51: no draw is made on in-range steps, and the comparator is high on R167's cyclic interval. -/
theorem comparatorRule : Obligations.ComparatorRule := by
  intro s ch _ hsound hon hoff
  rw [State.pwmOut_eq_comparator hsound hon hoff]
  exact comparator_iff _ _ _

end Sys2Proof.Machine
end

section
/-! PROOFS. The ranging unit's commands at acceptance, and one tick of each phase of a measurement
(42_ultrasonic_sequencer.md R192 to R210). -/

namespace Sys2Proof.Machine

open Sys2Proof

/-! ## USCFG, USREL (R192, R210) -/

/-- Settles O29: the model's checks are those of R192 on bit vectors, in the same order. -/
theorem uscfgRule : Obligations.UscfgRule := by
  intro s minCm maxCm strict
  have hzero : minCm.toNat = 0 ↔ minCm = 0 := BitVec.toNat_inj (y := 0#16)
  have hless : maxCm.toNat < minCm.toNat ↔ maxCm < minCm := BitVec.lt_def.symm
  change execUscfg minCm maxCm strict s = _
  rw [execUscfg]
  by_cases hmin : minCm = 0
  · rw [if_pos hmin, if_pos (hzero.2 hmin)]
    rfl
  · rw [if_neg hmin, if_neg (mt hzero.1 hmin)]
    by_cases hmax : maxCm < minCm
    · rw [if_pos hmax, if_pos (hless.2 hmax)]
      rfl
    · rw [if_neg hmax, if_neg (mt hless.1 hmax)]
      by_cases hready : s.seq.usReady = true
      · rw [if_pos hready, if_pos hready]
        rfl
      · rw [if_neg hready, if_neg hready]
        rfl

/-- Settles O30: the unit is constructed or it is not. -/
theorem usrelRule : Obligations.UsrelRule := by
  intro s
  change execUsrel s = _
  cases hready : s.seq.usReady with
  | false => rw [execUsrel, hready]; rfl
  | true => rw [execUsrel, hready]; rfl

/-! ## MEASURE at acceptance (R197 to R200) -/

/-- A constructed unit with a usable speed of sound and no hardware error starts the pulse (R198). -/
theorem exec_measure_pulse {s : State} (hready : s.seq.usReady = true) (herr : s.inputs.hwErr = false)
    (hspeed : s.soundSpeed ≠ 0) (nsig : BitVec 8) :
    exec (.measure nsig) s = .next (s.beginMeasure nsig).startPulse := by
  change execMeasure nsig s = _
  rw [execMeasure, if_pos hready, if_neg]
  simpa [herr] using hspeed

/-- A hardware error or a speed of 0 ends the measurement before its pulse (R198). -/
theorem exec_measure_noPulse {s : State} (hready : s.seq.usReady = true)
    (hfail : s.inputs.hwErr = true ∨ s.soundSpeed = 0) (nsig : BitVec 8) :
    exec (.measure nsig) s = .next ((s.beginMeasure nsig).finishMeasure .hwErr) := by
  change execMeasure nsig s = _
  rw [execMeasure, if_pos hready, if_pos]
  simpa using hfail

/-- The two sources of the temperature and of the speed of sound (R199). -/
theorem soundSpeed_ambientTemp_of_eq {s : State} {v : BitVec 32} {temp : BitVec 16}
    (h : (v, temp) = (if s.params.thermPresent then (sosMm s.inputs.temp, s.inputs.temp)
      else (s.params.sosDefaultMmS, 29815))) : v = s.soundSpeed ∧ temp = s.ambientTemp := by
  unfold State.soundSpeed State.ambientTemp
  cases htherm : s.params.thermPresent with
  | false => rw [htherm] at h; exact Prod.mk.inj h
  | true => rw [htherm] at h; exact Prod.mk.inj h

/-- Settles O37: the pulse's branch of the acceptance, with R233's timeout and R38's deadline as `fit64` stores them. -/
theorem measureAccepted : Obligations.MeasureAccepted := by
  refine ⟨fun s nsig v temp tmo hready hsource herr hv htmo => ?_, fun n hn => fit64_toNat hn, fun _ => nsig_toNat⟩
  obtain ⟨rfl, rfl⟩ := soundSpeed_ambientTemp_of_eq hsource
  subst htmo
  exact exec_measure_pulse hready herr hv nsig

/-- Settles O38: the failing branch of the acceptance. -/
theorem measureFailsBeforePulse : Obligations.MeasureFailsBeforePulse := by
  intro s nsig v temp hready hsource hfail
  obtain ⟨rfl, rfl⟩ := soundSpeed_ambientTemp_of_eq hsource
  exact exec_measure_noPulse hready hfail nsig

/-! ## One tick of a phase (R201 to R206) -/

section ticks
variable {s : State}

/-- A hardware error ends the pulse and both waits (R206). -/
theorem phaseTick_of_hwErr (hphase : s.phase = .usTrig ∨ s.phase = .usRise ∨ s.phase = .usFall)
    (herr : s.inputs.hwErr = true) : s.phaseTick = s.finishMeasure .hwErr := by
  obtain hp | hp | hp := hphase
  · rw [State.phaseTick, hp]; exact if_pos herr
  · rw [State.phaseTick, hp]; exact if_pos herr
  · rw [State.phaseTick, hp]; exact if_pos herr

/-- Without a hardware error the pulse is a phase with a length (R201). -/
theorem phaseTick_usTrig (hphase : s.phase = .usTrig) (herr : s.inputs.hwErr = false) :
    s.phaseTick = s.timed endPulse := by
  simp [State.phaseTick, hphase, usTrigTick, herr]

/-- The echo rises (R202). -/
theorem phaseTick_usRise_high (hphase : s.phase = .usRise) (herr : s.inputs.hwErr = false)
    (hecho : s.inputs.echo = true) :
    s.phaseTick = State.goto { s with seq := { s.seq with pend := s.time } } .usFall := by
  simp [State.phaseTick, hphase, usRiseTick, herr, hecho]

/-- A low sample within the deadline (R202). -/
theorem phaseTick_usRise_low (hphase : s.phase = .usRise) (herr : s.inputs.hwErr = false)
    (hecho : s.inputs.echo = false) (hdead : s.time.toNat ≤ s.seq.deadline.toNat) :
    s.phaseTick = { s with seq := { s.seq with pstart := s.time } } := by
  have hdead' : s.time ≤ s.seq.deadline := hdead
  simp [State.phaseTick, hphase, usRiseTick, herr, hecho, hdead']

/-- A low sample after the deadline (R202). -/
theorem phaseTick_usRise_late (hphase : s.phase = .usRise) (herr : s.inputs.hwErr = false)
    (hecho : s.inputs.echo = false) (hdead : s.seq.deadline.toNat < s.time.toNat) :
    s.phaseTick = State.finishMeasure { s with seq := { s.seq with pstart := s.time } } .timeout := by
  have hdead' : s.seq.deadline < s.time := hdead
  simp [State.phaseTick, hphase, usRiseTick, herr, hecho, hdead']

/-- A high sample that the deadline test of the falling-edge wait lets pass (R203, R204). -/
theorem phaseTick_usFall_high (hphase : s.phase = .usFall) (herr : s.inputs.hwErr = false)
    (hecho : s.inputs.echo = true) (hdead : s.fallDeadlinePassed = false) :
    s.phaseTick = { s with seq := { s.seq with pend := s.time } } := by
  simp [State.phaseTick, hphase, usFallTick, herr, hecho, hdead]

/-- A high sample that it does not (R203, R204). -/
theorem phaseTick_usFall_late (hphase : s.phase = .usFall) (herr : s.inputs.hwErr = false)
    (hecho : s.inputs.echo = true) (hdead : s.fallDeadlinePassed = true) :
    s.phaseTick = State.finishMeasure { s with seq := { s.seq with pend := s.time } } .timeout := by
  simp [State.phaseTick, hphase, usFallTick, herr, hecho, hdead]

/-- The echo falls (R203). -/
theorem phaseTick_usFall_low (hphase : s.phase = .usFall) (herr : s.inputs.hwErr = false)
    (hecho : s.inputs.echo = false) : s.phaseTick = s.finishMeasure .ok := by
  simp [State.phaseTick, hphase, usFallTick, herr, hecho]

/-- The re-arm lasts one tick (R207). -/
theorem phaseTick_usRearm (hlast : s.lastTick .usRearm) : s.phaseTick = rearmAct s := by
  rw [State.phaseTick, hlast.1]
  exact State.timed_last hlast.2

/-- The deadline test of the falling-edge wait passes a pulse that began in time: by default always, and with
`FALL_DEADLINE_FIX` up to the deadline (R204). -/
theorem State.fallDeadlinePassed_eq_false (hstart : s.seq.pstart.toNat ≤ s.seq.deadline.toNat)
    (hdead : s.params.fallDeadlineFix = false ∨ s.time.toNat ≤ s.seq.deadline.toNat) :
    s.fallDeadlinePassed = false := by
  have hstart' : s.seq.pstart ≤ s.seq.deadline := hstart
  unfold State.fallDeadlinePassed
  cases hfix : s.params.fallDeadlineFix with
  | false => simp [hstart']
  | true =>
    have hdead' : s.time ≤ s.seq.deadline := hdead.resolve_left (by simp [hfix])
    simp [hdead']

/-- With `FALL_DEADLINE_FIX` the test is against the present tick (R204). -/
theorem State.fallDeadlinePassed_of_fix (hfix : s.params.fallDeadlineFix = true)
    (hdead : s.seq.deadline.toNat < s.time.toNat) : s.fallDeadlinePassed = true := by
  have hdead' : s.seq.deadline < s.time := hdead
  simp [State.fallDeadlinePassed, hfix, hdead']

/-- What ends the falling-edge wait, where the deadline test lets every sample pass, is an error or the fall. -/
theorem phaseTick_usFall_outcome (hphase : s.phase = .usFall) (hpass : s.fallDeadlinePassed = false)
    (hend : s.phaseTick.phase = .usRearm) : s.phaseTick.seq.outcome = .hwErr ∨ s.phaseTick.seq.outcome = .ok := by
  cases herr : s.inputs.hwErr with
  | true =>
    rw [phaseTick_of_hwErr (.inr (.inr hphase)) herr]
    exact .inl rfl
  | false =>
    cases hecho : s.inputs.echo with
    | true =>
      rw [phaseTick_usFall_high hphase herr hecho hpass] at hend
      cases hphase.symm.trans hend
    | false =>
      rw [phaseTick_usFall_low hphase herr hecho]
      exact .inr rfl

/-! ## The answer (R208) -/

/-- The answer depends on the ranging registers and the parameters alone. -/
theorem State.measureResult_resp_congr {r : State} (hseq : s.seq = r.seq) (hparams : s.params = r.params) :
    s.measureResult.resp = r.measureResult.resp := by
  unfold State.measureResult
  rw [hseq, hparams]
  cases r.seq.outcome with
  | timeout => cases r.seq.usStrict <;> rfl
  | _ => rfl

theorem State.measureResult_resp_ok (h : s.seq.outcome = .ok) :
    s.measureResult.resp =
      ⟨true, 0, 2, fitRexp (distSig s.params.oscHz s.seq.v.toNat s.seq.pulseWidth s.seq.nsig.toNat).2,
        BitVec.ofNat 32 (distSig s.params.oscHz s.seq.v.toNat s.seq.pulseWidth s.seq.nsig.toNat).1⟩ := by
  simp [State.measureResult, h]

theorem State.measureResult_resp_timeout (h : s.seq.outcome = .timeout) :
    s.measureResult.resp = if s.seq.usStrict then ⟨true, 4, 0, 0, 0⟩ else ⟨true, 0, 3, 0, 0⟩ := by
  simp only [State.measureResult, h]
  split <;> rfl

theorem State.measureResult_resp_hwErr (h : s.seq.outcome = .hwErr) :
    s.measureResult.resp = ⟨true, 0, 3, 0, 0⟩ := by
  simp [State.measureResult, h, statusCode, kindCode]

end ticks

end Sys2Proof.Machine
end

section
/-! PROOFS. The pieces of a measurement's run (42_ultrasonic_sequencer.md R198 to R208): the pulse, the two waits and
the re-arm, each with its own effect on the ranging registers. -/

namespace Sys2Proof.Machine

open Sys2Proof

/-! ## Later states of a measurement -/

/-- The same ranging registers written in both states. -/
theorem Later.withSeq {k : Nat} {e t : State} (h : Later k e t) {q q' : Seq} (hq : q' = q) :
    Later k { e with seq := q } { t with seq := q' } := { h with seq := hq }

/-! ## The ranging registers along a measurement -/

/-- The state in which MEASURE starts its pulse: the word latched and R198's registers written. -/
def State.pulsed (s : State) (nsig : BitVec 8) : State := ((s.latch s.inputs.cmd).beginMeasure nsig).startPulse

/-- The pins once the pulse has ended: a shared pin listens (R201). -/
def State.listening (s : State) : State :=
  { s with seq := { s.seq with
      trigMode := if s.params.sharedPin then .inp else s.seq.trigMode
      echoMode := if s.params.sharedPin then .inp else s.seq.echoMode
      trig := false } }

/-- The last low sample of the rising-edge wait, or the end of the pulse, was at tick `k` (R201, R202). -/
def State.lowUntil (s : State) (k : Nat) : State :=
  { s with seq := { s.seq with pstart := s.time + BitVec.ofNat 64 k } }

/-- The last high sample was at tick `k` (R202, R203). -/
def State.highUntil (s : State) (k : Nat) : State :=
  { s with seq := { s.seq with pend := s.time + BitVec.ofNat 64 k } }

/-- The measurement has ended in this way, and the re-arm comes next. -/
def State.decided (s : State) (o : MeasureOutcome) : State := { s with seq := { s.seq with outcome := o } }

/-- The pins re-armed and `OUTCOME` back to `NONE` (R207). -/
def State.rearmed (s : State) : State := { s with seq := { s.seq.arm s.params with outcome := .none } }

/-! What one tick does to the ranging registers of the state that is later, it does to those of the earlier one. -/

section samples
variable {k : Nat} {e t : State} (h : Later k e t)
include h

theorem Later.lowSample : Later k (e.lowUntil k) { t with seq := { t.seq with pstart := t.time } } :=
  h.withSeq (by rw [h.seq, h.time])

theorem Later.highSample : Later k (e.highUntil k) { t with seq := { t.seq with pend := t.time } } :=
  h.withSeq (by rw [h.seq, h.time])

theorem Later.pulseEnd : Later k (e.listening.lowUntil k) (endPulse t) := by
  rw [endPulse_eq]
  refine (h.withSeq ?_).withPhase .usRise t.waitCnt t.resp
  rw [h.seq, h.params, h.time]
  rfl

theorem Later.finishMeasure (o : MeasureOutcome) : Later k (e.decided o) (t.finishMeasure o) :=
  (h.withSeq (by rw [h.seq])).enter .usRearm 1

theorem Later.rearmed : Later k e.rearmed t.rearmed := h.withSeq (by rw [h.seq, h.params])

end samples

/-- `e` is `s` with a measurement in flight: outside the ranging unit nothing differs but the latched word, and the
configuration is the same (R34). -/
structure Ranging (s e : State) : Prop where
  params : e.params = s.params
  env : e.env = s.env
  time : e.time = s.time
  ctl : e.ctl = s.ctl
  drv : e.drv = s.drv
  accno : e.accno = s.accno
  usReady : e.seq.usReady = s.seq.usReady
  usMin : e.seq.usMin = s.seq.usMin
  usMax : e.seq.usMax = s.seq.usMax
  usStrict : e.seq.usStrict = s.seq.usStrict

section ranging
variable {s e : State}

theorem Ranging.refl (s : State) : Ranging s s := ⟨rfl, rfl, rfl, rfl, rfl, rfl, rfl, rfl, rfl, rfl⟩

theorem ranging_pulsed (s : State) (nsig : BitVec 8) : Ranging s (s.pulsed nsig) :=
  ⟨rfl, rfl, rfl, rfl, rfl, rfl, rfl, rfl, rfl, rfl⟩

theorem Ranging.listening (h : Ranging s e) : Ranging s e.listening := { h with }

theorem Ranging.lowUntil (h : Ranging s e) (k : Nat) : Ranging s (e.lowUntil k) := { h with }

theorem Ranging.highUntil (h : Ranging s e) (k : Nat) : Ranging s (e.highUntil k) := { h with }

theorem Ranging.decided (h : Ranging s e) (o : MeasureOutcome) : Ranging s (e.decided o) := { h with }

theorem Ranging.rearmed (h : Ranging s e) : Ranging s e.rearmed := { h with }

end ranging

/-- Below its register's bound the deadline of a measurement is the exact one (R38, R198, R233). -/
theorem State.pulsed_deadline {s : State} {nsig : BitVec 8} {tmo : Nat}
    (htmo : tmo = 20 * s.seq.usMax.toNat * s.params.oscHz / s.soundSpeed.toNat)
    (hfits : s.time.toNat + s.params.trigTicks.toNat + tmo < 2 ^ 64) :
    (s.pulsed nsig).seq.deadline.toNat = s.time.toNat + s.params.trigTicks.toNat + tmo := by
  have hdead : (s.pulsed nsig).seq.deadline =
      fit64 (s.time.toNat + s.params.trigTicks.toNat + (fit64 tmo).toNat) := by rw [htmo]; rfl
  rw [hdead, fit64_toNat (show tmo < 2 ^ 64 by omega), fit64_toNat hfits]

/-- The pulse width between two samples of one run (R208). -/
theorem Seq.pulseWidth_of_samples {q : Seq} {x : BitVec 64} {a b : Nat} (hstart : q.pstart = x + BitVec.ofNat 64 a)
    (hend : q.pend = x + BitVec.ofNat 64 b) (hab : a ≤ b) (hb : b < 2 ^ 64) : q.pulseWidth = b - a := by
  rw [Seq.pulseWidth, hstart, hend, add_sub_add_left_eq_sub, BitVec.toNat_sub, BitVec.toNat_ofNat,
    BitVec.toNat_ofNat]
  omega

/-! ## The pieces of the run -/

/-- A measurement in flight: `s` has run for `k` ticks to `t`, which is `e` but for the phase and the counters. -/
structure Measuring (s : State) (k : Nat) (e t : State) : Prop extends Reached s k e t where
  ranging : Ranging s e

theorem Measuring.refl (s : State) : Measuring s 0 s s := ⟨⟨s.run_zero, Later.refl s⟩, Ranging.refl s⟩

/-- The acceptance tick of a MEASURE that starts its pulse (R198). -/
theorem measuring_pulsed {s : State} {nsig : BitVec 8} (hrun : s.running) (hpres : s.presents (.measure nsig))
    (hready : s.seq.usReady = true) (herr : s.inputs.hwErr = false) (hspeed : s.soundSpeed ≠ 0) :
    ∃ t, Measuring s 1 (s.pulsed nsig) t ∧ t.phase = .usTrig ∧ t.waitCnt = s.params.trigTicks := by
  have hexec : exec (.measure nsig) (s.dividerTick.latch s.inputs.cmd) = .next (s.pulsed nsig).dividerTick :=
    exec_measure_pulse (s := s.dividerTick.latch s.inputs.cmd) hready herr hspeed nsig
  have hstep := step_running hrun ((State.commandTick_of_presents (State.presents_dividerTick.2 hpres)).trans hexec)
  have hreach : Reached s 1 (s.pulsed nsig) (s.pulsed nsig).dividerTick.clockEdge :=
    ⟨(s.run_succ 0 hstep).trans (State.run_zero _), (Later.refl _).dividerTick.clockEdge⟩
  exact ⟨_, ⟨hreach, ranging_pulsed s nsig⟩, rfl, rfl⟩

theorem State.lastTick_finishMeasure (r : State) (o : MeasureOutcome) :
    (r.finishMeasure o).clockEdge.lastTick .usRearm := ⟨rfl, rfl⟩

section pieces
variable {s e t : State} {k : Nat}

theorem Measuring.inputs (h : Measuring s k e t) : t.inputs = s.pinsAt k := by
  have hpin : t.inputs = e.pinsAt k := h.later.pins 0
  rw [hpin, State.pinsAt, State.pinsAt, h.ranging.env]

/-- Below the wrap of the 64-bit counter `TIME` is the number of ticks (R21). -/
theorem Measuring.time_toNat (h : Measuring s k e t) (hfits : s.time.toNat + k < 2 ^ 64) :
    t.time.toNat = s.time.toNat + k := by
  rw [h.later.time, h.ranging.time, BitVec.toNat_add, BitVec.toNat_ofNat]
  omega

/-- One tick of a measurement. -/
theorem Measuring.turn {e' u : State} (h : Measuring s k e t) (hbusy : t.phase ≠ .idle) (hrun : s.runningFor (k + 1))
    (htick : t.dividerTick.phaseTick = u) (hlater : Later k e' u) (hsame : Ranging s e') :
    Measuring s (k + 1) e' u.clockEdge := by
  have hrunning : t.running :=
    ⟨by rw [h.later.params, h.ranging.params]; exact hrun.1, by rw [h.inputs]; exact hrun.2 k (Nat.lt_succ_self k)⟩
  exact ⟨⟨State.run_succ_right h.run (htick ▸ step_busy hrunning hbusy), hlater.clockEdge⟩, hsame⟩

/-- The rest of the pulse, `l + 1` ticks: its last tick is the first sample time (R201). -/
theorem Measuring.pulse {l : Nat} (h : Measuring s k e t) (hphase : t.phase = .usTrig)
    (hcnt : t.waitCnt.toNat = l + 1) (hrun : s.runningFor (k + l + 1))
    (hok : ∀ j < k + l + 1, (s.pinsAt j).hwErr = false) :
    ∃ u, Measuring s (k + l + 1) (e.listening.lowUntil (k + l)) u ∧ u.phase = .usRise := by
  induction l generalizing t k with
  | zero =>
    have htick := phaseTick_usTrig (s := t.dividerTick) hphase (h.inputs ▸ hok k (by omega))
    have hlast : t.dividerTick.waitCnt = 1 := BitVec.eq_of_toNat_eq hcnt
    rw [State.timed_last hlast] at htick
    exact ⟨_, h.turn (by simp [hphase]) hrun htick h.later.dividerTick.pulseEnd (h.ranging.listening.lowUntil k),
      by rw [endPulse_eq]; rfl⟩
  | succ l ih =>
    have htick := phaseTick_usTrig (s := t.dividerTick) hphase (h.inputs ▸ hok k (by omega))
    have hmore : t.dividerTick.waitCnt ≠ 1 := fun hone => by
      rw [State.dividerTick_waitCnt] at hone
      rw [hone] at hcnt
      simp at hcnt
    rw [State.timed_wait hmore] at htick
    have hnext := h.turn (by simp [hphase]) (runningFor_mono hrun (by omega)) htick
      (h.later.dividerTick.withPhase t.phase (t.waitCnt - 1) t.resp) h.ranging
    have hless : (t.waitCnt - 1).toNat = l + 1 := by bv_omega
    have hlen : k + (l + 1) = k + 1 + l := by omega
    rw [hlen] at hrun hok ⊢
    exact ih hnext hphase hless hrun hok

/-- Low samples within the deadline, from the one at tick `k` to the one at tick `m` (R202). -/
theorem Measuring.riseWait {m : Nat} (hkm : k ≤ m) (h : Measuring s (k + 1) (e.lowUntil k) t)
    (hphase : t.phase = .usRise) (hrun : s.runningFor (m + 1)) (hok : ∀ j < m + 1, (s.pinsAt j).hwErr = false)
    (hlow : ∀ j < m + 1, k < j → (s.pinsAt j).echo = false) (hdead : s.time.toNat + m ≤ e.seq.deadline.toNat) :
    ∃ u, Measuring s (m + 1) (e.lowUntil m) u ∧ u.phase = .usRise := by
  induction m, hkm using Nat.le_induction with
  | base => exact ⟨t, h, hphase⟩
  | succ m hkm ih =>
    obtain ⟨r, hr, hrise⟩ := ih (runningFor_mono hrun (by omega)) (fun j hj => hok j (by omega))
      (fun j hj => hlow j (by omega)) (by omega)
    have hdeadline : r.seq.deadline = e.seq.deadline := (congrArg Seq.deadline hr.later.seq :)
    have htime : r.time.toNat = s.time.toNat + (m + 1) :=
      hr.time_toNat (Nat.lt_of_le_of_lt hdead e.seq.deadline.isLt)
    have htick := phaseTick_usRise_low (s := r.dividerTick) hrise (hr.inputs ▸ hok (m + 1) (by omega))
      (hr.inputs ▸ hlow (m + 1) (by omega) (by omega))
      (show r.time.toNat ≤ r.seq.deadline.toNat by rw [hdeadline, htime]; exact hdead)
    exact ⟨_, hr.turn (by simp [hrise]) hrun htick hr.later.dividerTick.lowSample (hr.ranging.lowUntil (m + 1)), hrise⟩

/-- High samples that the deadline test lets pass, from the one at tick `k` to the one at tick `m` (R203, R204). -/
theorem Measuring.fallWait {m : Nat} (hkm : k ≤ m) (h : Measuring s (k + 1) (e.highUntil k) t)
    (hphase : t.phase = .usFall) (hrun : s.runningFor (m + 1)) (hok : ∀ j < m + 1, (s.pinsAt j).hwErr = false)
    (hhigh : ∀ j < m + 1, k < j → (s.pinsAt j).echo = true) (hfits : s.time.toNat + m < 2 ^ 64)
    (hstart : e.seq.pstart.toNat ≤ e.seq.deadline.toNat)
    (hdead : s.params.fallDeadlineFix = false ∨ s.time.toNat + m ≤ e.seq.deadline.toNat) :
    ∃ u, Measuring s (m + 1) (e.highUntil m) u ∧ u.phase = .usFall := by
  induction m, hkm using Nat.le_induction with
  | base => exact ⟨t, h, hphase⟩
  | succ m hkm ih =>
    obtain ⟨r, hr, hfall⟩ := ih (runningFor_mono hrun (by omega)) (fun j hj => hok j (by omega))
      (fun j hj => hhigh j (by omega)) (by omega) (hdead.imp_right (by omega))
    have hdeadline : r.seq.deadline = e.seq.deadline := (congrArg Seq.deadline hr.later.seq :)
    have hpstart : r.seq.pstart = e.seq.pstart := (congrArg Seq.pstart hr.later.seq :)
    have hparams : r.params = s.params := hr.later.params.trans hr.ranging.params
    have hpass : r.dividerTick.fallDeadlinePassed = false :=
      State.fallDeadlinePassed_eq_false (s := r.dividerTick) (by simpa [hpstart, hdeadline] using hstart)
        (by simpa [hparams, hdeadline, hr.time_toNat hfits] using hdead)
    have htick := phaseTick_usFall_high (s := r.dividerTick) hfall (hr.inputs ▸ hok (m + 1) (by omega))
      (hr.inputs ▸ hhigh (m + 1) (by omega) (by omega)) hpass
    exact ⟨_, hr.turn (by simp [hfall]) hrun htick hr.later.dividerTick.highSample (hr.ranging.highUntil (m + 1)),
      hfall⟩

/-- The re-arm: the pins, `OUTCOME` and the answer (R207, R208). -/
theorem Measuring.rearm (h : Measuring s k e t) (hlast : t.lastTick .usRearm) (hrun : s.runningFor (k + 1)) :
    ∃ u, Measuring s (k + 1) e.rearmed u ∧ u.phase = .idle ∧ u.resp = e.measureResult.resp := by
  obtain ⟨st, kind, exp, val, heq⟩ := rearmAct_eq t.dividerTick
  have hlater : Later k e.rearmed (rearmAct t.dividerTick) :=
    heq ▸ h.later.dividerTick.rearmed.withPhase .idle t.waitCnt _
  have hphase : (rearmAct t.dividerTick).phase = .idle := heq ▸ rfl
  exact ⟨_, h.turn (by simp [hlast.1]) hrun (phaseTick_usRearm (s := t.dividerTick) hlast) hlater h.ranging.rearmed,
    hphase, State.measureResult_resp_congr (s := t.dividerTick) h.later.seq h.later.params⟩

/-- The tick that decides a measurement, and the re-arm after it. -/
theorem Measuring.finish {e' r : State} {o : MeasureOutcome} (h : Measuring s k e t) (hbusy : t.phase ≠ .idle)
    (hrun : s.runningFor (k + 2)) (htick : t.dividerTick.phaseTick = r.finishMeasure o) (hlater : Later k e' r)
    (hsame : Ranging s e') :
    ∃ u, Measuring s (k + 2) (e'.decided o).rearmed u ∧ u.phase = .idle
      ∧ u.resp = (e'.decided o).measureResult.resp :=
  (h.turn hbusy (runningFor_mono hrun (Nat.le_succ _)) htick (hlater.finishMeasure o) (hsame.decided o)).rearm
    (r.lastTick_finishMeasure o) hrun

/-- What every measurement leaves at its end (R207, R328). -/
theorem Measuring.rearmed_leaves (h : Measuring s k e.rearmed t) (hready : s.seq.usReady = true) :
    t.seq.trigMode = .out ∧ t.seq.trig = false ∧ t.seq.echoMode = armedEcho s.params ∧ t.seq.outcome = .none
      ∧ t.seq.usReady = true ∧ t.seq.usMin = s.seq.usMin ∧ t.seq.usMax = s.seq.usMax
      ∧ t.seq.usStrict = s.seq.usStrict
      ∧ (∀ addr, t.peek addr = s.peek addr) ∧ t.drv = s.drv ∧ t.accno = s.accno := by
  have hsame := h.ranging
  have hpeek (addr : Byte) : t.peek addr = s.peek addr := by
    rw [h.later.peek, State.peek, State.peek, hsame.params, hsame.ctl]
  rw [h.later.seq]
  exact ⟨rfl, rfl, congrArg armedEcho hsame.params, rfl, hsame.usReady.trans hready, hsame.usMin, hsame.usMax,
    hsame.usStrict, hpeek, h.later.drv.trans hsame.drv, h.later.accno.trans hsame.accno⟩

end pieces

end Sys2Proof.Machine
end

section
/-! PROOFS. MEASURE from acceptance to answer (42_ultrasonic_sequencer.md R198 to R208), and the falling-edge wait
(R203, R204). -/

namespace Sys2Proof.Machine

open Sys2Proof

/-! ## The runs of a MEASURE (R201 to R208) -/

section measured
variable {s : State} {nsig : BitVec 8} {tmo : Nat} (hpres : s.presents (.measure nsig))
  (hready : s.seq.usReady = true) (hspeed : s.soundSpeed ≠ 0)
  (htmo : tmo = 20 * s.seq.usMax.toNat * s.params.oscHz / s.soundSpeed.toNat)
  (hfits : s.time.toNat + s.params.trigTicks.toNat + tmo < 2 ^ 64)
include hpres hready hspeed

/-- The end of the pulse (R201). -/
theorem measure_run_to_rise (hrun : s.runningFor (s.params.trigTicks.toNat + 1))
    (hok : ∀ j < s.params.trigTicks.toNat + 1, (s.pinsAt j).hwErr = false) :
    ∃ t, Measuring s (s.params.trigTicks.toNat + 1)
        ((s.pulsed nsig).listening.lowUntil s.params.trigTicks.toNat) t ∧ t.phase = .usRise := by
  obtain ⟨l, hl⟩ : ∃ l, s.params.trigTicks.toNat = l + 1 := by
    have := (ne_zero_of_paramsOk hrun.1).1
    exact ⟨s.params.trigTicks.toNat - 1, by bv_omega⟩
  obtain ⟨t, h, hphase, hcnt⟩ :=
    measuring_pulsed ⟨hrun.1, hrun.2 0 (by omega)⟩ hpres hready (hok 0 (by omega)) hspeed
  have hlen : s.params.trigTicks.toNat = 1 + l := by omega
  rw [hlen] at hrun hok ⊢
  exact h.pulse hphase (hcnt ▸ hl) hrun hok

include htmo hfits

/-- Low samples up to tick `m`, within the deadline (R202). -/
theorem measure_run_low {m : Nat} (hlo : s.params.trigTicks.toNat ≤ m) (hhi : m ≤ s.params.trigTicks.toNat + tmo)
    (hrun : s.runningFor (m + 1)) (hok : ∀ j < m + 1, (s.pinsAt j).hwErr = false)
    (hlow : ∀ j < m + 1, s.params.trigTicks.toNat < j → (s.pinsAt j).echo = false) :
    ∃ t, Measuring s (m + 1) ((s.pulsed nsig).listening.lowUntil m) t ∧ t.phase = .usRise := by
  obtain ⟨t, h, hrise⟩ := measure_run_to_rise hpres hready hspeed (runningFor_mono hrun (by omega))
    fun j hj => hok j (by omega)
  have hdead : (s.pulsed nsig).listening.seq.deadline.toNat = _ := s.pulsed_deadline htmo hfits
  exact h.riseWait hlo hrise hrun hok hlow (by rw [hdead]; omega)

/-- After low samples up to tick `a` the echo is high up to tick `b`, within the deadline where the fix asks for it
(R202 to R204). -/
theorem measure_run_high {a b : Nat} (hlo : s.params.trigTicks.toNat ≤ a) (hhi : a ≤ s.params.trigTicks.toNat + tmo)
    (hab : a < b) (hb : s.time.toNat + b < 2 ^ 64)
    (hdead : s.params.fallDeadlineFix = false ∨ b ≤ s.params.trigTicks.toNat + tmo)
    (hrun : s.runningFor (b + 1)) (hok : ∀ j < b + 1, (s.pinsAt j).hwErr = false)
    (hlow : ∀ j < a + 1, s.params.trigTicks.toNat < j → (s.pinsAt j).echo = false)
    (hhigh : ∀ j < b + 1, a < j → (s.pinsAt j).echo = true) :
    ∃ t, Measuring s (b + 1) (((s.pulsed nsig).listening.lowUntil a).highUntil b) t ∧ t.phase = .usFall := by
  obtain ⟨r, hr, hrise⟩ := measure_run_low hpres hready hspeed htmo hfits hlo hhi (runningFor_mono hrun (by omega))
    (fun j hj => hok j (by omega)) hlow
  have hup := phaseTick_usRise_high (s := r.dividerTick) hrise (hr.inputs ▸ hok (a + 1) (by omega))
    (hr.inputs ▸ hhigh (a + 1) (by omega) (by omega))
  have hfirst := hr.turn (by simp [hrise]) (runningFor_mono hrun (by omega)) hup
    (hr.later.dividerTick.highSample.withPhase .usFall r.waitCnt r.resp) (hr.ranging.highUntil (a + 1))
  have hdeadline : ((s.pulsed nsig).listening.lowUntil a).seq.deadline.toNat = _ := s.pulsed_deadline htmo hfits
  have hpstart : ((s.pulsed nsig).listening.lowUntil a).seq.pstart = s.time + BitVec.ofNat 64 a := rfl
  exact hfirst.fallWait hab rfl hrun hok (fun j hj hlate => hhigh j hj (by omega)) hb
    (by rw [hdeadline, hpstart, BitVec.toNat_add, BitVec.toNat_ofNat]; omega)
    (hdead.imp_right fun hle => by rw [hdeadline]; omega)

end measured

/-- Settles O39: low samples up to the deadline, the late one, the re-arm. -/
theorem measureWithoutEcho : Obligations.MeasureWithoutEcho := by
  intro s nsig tmo hpres hready _ hspeed htmo hfits hrun hok hlow
  obtain ⟨r, hr, hrise⟩ := measure_run_low hpres hready hspeed htmo (by omega) (Nat.le_add_right _ tmo) (Nat.le_refl _)
    (runningFor_mono hrun (by omega)) (fun j hj => hok j (by omega)) fun j hj => hlow j (by omega)
  have hdead : r.seq.deadline.toNat = s.time.toNat + s.params.trigTicks.toNat + tmo := by
    rw [hr.later.seq]
    exact s.pulsed_deadline htmo (by omega)
  have hlate : r.seq.deadline.toNat < r.time.toNat := by
    rw [hdead, hr.time_toNat (by omega)]
    omega
  have htick := phaseTick_usRise_late (s := r.dividerTick) hrise (hr.inputs ▸ hok _ (by omega))
    (hr.inputs ▸ hlow _ (by omega) (by omega)) hlate
  obtain ⟨t, ht, hidle, hresp⟩ := hr.finish (by simp [hrise]) hrun htick hr.later.dividerTick.lowSample
    (hr.ranging.lowUntil _)
  have hstrict := (hr.ranging.decided .timeout).usStrict
  refine ⟨t, ht.run, hidle, ?resp, ht.rearmed_leaves hready⟩
  case resp =>
    rw [hresp, State.measureResult_resp_timeout rfl, ← hstrict]
    rfl

/-- Settles O40: low samples, high samples, the fall, the re-arm; the width is the time from the last low sample before
the echo to the last high one. -/
theorem measureWithEcho : Obligations.MeasureWithEcho := by
  intro s nsig tmo h l hpres hready _ hspeed htmo hpulse hhl hrise hfix hfits hrun hok hlow hhigh hend
  obtain ⟨a, rfl⟩ : ∃ a, h = a + 1 := ⟨h - 1, by omega⟩
  obtain ⟨b, rfl⟩ : ∃ b, l = b + 1 := ⟨l - 1, by omega⟩
  obtain ⟨r, hr, hfall⟩ := measure_run_high (b := b) hpres hready hspeed htmo (by omega) (Nat.lt_succ_iff.1 hpulse)
    (Nat.le_of_succ_le_succ hrise) (Nat.lt_of_succ_lt_succ hhl) (by omega) (hfix.imp_right Nat.le_of_succ_le_succ)
    (runningFor_mono hrun (by omega)) (fun j hj => hok j (by omega)) hlow hhigh
  have hdown := phaseTick_usFall_low (s := r.dividerTick) hfall (hr.inputs ▸ hok (b + 1) (by omega))
    (hr.inputs ▸ hend)
  obtain ⟨t, ht, hidle, hresp⟩ := hr.finish (by simp [hfall]) hrun hdown hr.later.dividerTick hr.ranging
  refine ⟨t, ht.run, hidle, ?resp, ht.rearmed_leaves hready⟩
  case resp =>
    rw [hresp, State.measureResult_resp_ok rfl, Seq.pulseWidth_of_samples (a := a) (b := b) rfl rfl (by omega)
      (by omega), Nat.add_sub_add_right, ← nsig_toNat (nsig_of_decode hpres.2.2).2]
    rfl

/-- Settles O41: the tick of the error, then the re-arm. -/
theorem hardwareErrorGivesAbsence : Obligations.HardwareErrorGivesAbsence := by
  intro s hphase hrun herr
  have hbusy : s.phase ≠ .idle := by obtain hp | hp | hp := hphase <;> simp [hp]
  obtain ⟨t, ht, hidle, hresp⟩ := (Measuring.refl s).finish hbusy hrun
    (phaseTick_of_hwErr (s := s.dividerTick) hphase herr) (Later.refl s).dividerTick (Ranging.refl s)
  exact ⟨t, ht.run, hidle, hresp.trans (State.measureResult_resp_hwErr rfl), ht.later.seq, ht.later.drv,
    ht.later.accno, ht.later.peek⟩

/-! ## The deadline of the falling-edge wait (R203, R204) -/

/-- Settles O42: each high sample leaves the wait, its start and its deadline as they were. -/
theorem fallingWaitHangs : Obligations.FallingWaitHangs := by
  intro s n hphase hfix hstart hrun hhigh
  induction n generalizing s with
  | zero => exact ⟨s, s.run_zero, hphase, by simp [State.cmdReady, hphase], rfl⟩
  | succ n ih =>
    obtain ⟨hecho, herr⟩ := hhigh 0 (Nat.succ_pos n)
    have htick := phaseTick_usFall_high (s := s.dividerTick) hphase herr hecho
      (State.fallDeadlinePassed_eq_false (s := s.dividerTick) hstart (.inl hfix))
    have hstep := step_busy ⟨hrun.1, hrun.2 0 (Nat.succ_pos n)⟩ (by simp [hphase])
    rw [htick] at hstep
    have hpins (u : State) (j : Nat) : u.clockEdge.pinsAt j = u.pinsAt (j + 1) := Env.pinsAt_advance u.env j
    rw [s.run_succ n hstep]
    exact ih _ hphase hfix hstart ⟨hrun.1, fun j hj => hpins _ j ▸ hrun.2 (j + 1) (Nat.succ_lt_succ hj)⟩
      fun j hj => hpins _ j ▸ hhigh (j + 1) (Nat.succ_lt_succ hj)

/-- Settles O43: by default the pulse began in time (`TimestampInv`), so only an error or the fall ends the wait; with
`FALL_DEADLINE_FIX` the late sample does. -/
theorem fallingWaitTimeouts : Obligations.FallingWaitTimeouts := by
  intro s hinv hphase
  obtain ⟨-, -, hfall, -⟩ := hinv
  obtain ⟨-, -, -, hstart⟩ := hfall hphase
  refine ⟨fun hfix t hstep hrearm => ?byDefault, fun hfix hrun hecho herr hdead => ?fixed⟩
  case byDefault =>
    obtain ⟨hok, ⟨-, rfl⟩ | ⟨hrst, -⟩⟩ := step_cases hstep
    · cases hrearm
    · cases (step_busy ⟨hok, hrst⟩ (by simp [hphase])).symm.trans hstep
      obtain ho | ho := phaseTick_usFall_outcome (s := s.dividerTick) hphase
        (State.fallDeadlinePassed_eq_false (s := s.dividerTick) hstart (.inl hfix)) hrearm
      · simp [ho]
      · simp [ho]
  case fixed =>
    have htick := phaseTick_usFall_late (s := s.dividerTick) hphase herr hecho
      (State.fallDeadlinePassed_of_fix (s := s.dividerTick) hfix hdead)
    obtain ⟨t, ht, hidle, hresp⟩ := (Measuring.refl s).finish (by simp [hphase]) hrun htick
      (Later.refl s).dividerTick.highSample ((Ranging.refl s).highUntil 0)
    refine ⟨t, ht.run, hidle, hresp.trans (State.measureResult_resp_timeout rfl), ?_⟩
    rw [ht.later.seq]
    exact ⟨s.time.add_zero, rfl, rfl, rfl, rfl⟩

end Sys2Proof.Machine
end

section
/-! PROOFS. The distance converter (43_distance_converter.md R231 to R236): the speed of sound as a rounded square root,
rounding to significant figures, and the range of its exponent. -/

namespace Sys2Proof.Machine

open Sys2Proof

/-! ## The speed of sound (R231, R232, R236) -/

/-- A rounded square root is past `v` exactly when the real root is at least `v + 1/2`. -/
theorem lt_roundSqrt_iff {v n : Nat} : v < roundSqrt n ↔ (2 * v + 1) * (2 * v + 1) ≤ 4 * n := by
  obtain ⟨hlow, hhigh⟩ := isqrt_spec n
  obtain ⟨hr, hn⟩ | ⟨hr, hn⟩ := roundSqrt_cases n
  · rw [hr]
    constructor <;> intro h <;> nlinarith
  · rw [hr]
    constructor <;> intro h <;> nlinarith

theorem roundSqrt_mono {m n : Nat} (h : m ≤ n) : roundSqrt m ≤ roundSqrt n := by
  by_contra hlt
  have hm := lt_roundSqrt_iff.1 (Nat.lt_of_not_le hlt)
  exact lt_irrefl _ (lt_roundSqrt_iff.2 (hm.trans (Nat.mul_le_mul_left 4 h)))

theorem roundSqrt_pos_iff {n : Nat} : 0 < roundSqrt n ↔ 0 < n := by
  rw [lt_roundSqrt_iff]
  omega

/-- The speed fits its register at every temperature. -/
theorem sosMm_toNat (tempCk : BitVec 16) : (sosMm tempCk).toNat = roundSqrt (4020025 * tempCk.toNat) := by
  have hfits : ¬ 2 ^ 32 - 1 < roundSqrt (4020025 * tempCk.toNat) := by
    rw [lt_roundSqrt_iff]
    omega
  rw [sosMm, BitVec.toNat_ofNat]
  exact Nat.mod_eq_of_lt (show roundSqrt (4020025 * tempCk.toNat) < 2 ^ 32 by omega)

/-- Settles O32: the half-integers on both sides of the speed bound the root. -/
theorem sosAnswersNearestSpeed : Obligations.SosAnswersNearestSpeed := by
  intro s tempCk
  refine ⟨(sosMm tempCk).toNat, (sosMm tempCk).isLt, ?answer, ?low, ?high⟩
  case answer =>
    rw [BitVec.ofNat_toNat, BitVec.setWidth_eq]
    rfl
  case low =>
    rw [sosMm_toNat]
    cases hv : roundSqrt (4020025 * tempCk.toNat) with
    | zero => exact .inl rfl
    | succ u => exact .inr (lt_roundSqrt_iff.1 (hv ▸ Nat.lt_succ_self u))
  case high =>
    rw [sosMm_toNat, ← Nat.not_le, ← lt_roundSqrt_iff]
    exact lt_irrefl _

/-- Settles O33: the eight values are computed; the laws are those of the rounded square root. -/
theorem sosValuesAndLaws : Obligations.SosValuesAndLaws := by
  refine ⟨by decide, by decide, by decide, by decide, by decide, by decide, by decide, by decide, fun a b h => ?mono,
    fun a => ?zero⟩
  case mono =>
    rw [sosMm_toNat, sosMm_toNat]
    exact roundSqrt_mono (Nat.mul_le_mul_left _ h)
  case zero =>
    have hpos := roundSqrt_pos_iff (n := 4020025 * a.toNat)
    change sosMm a = 0#32 ↔ a = 0#16
    rw [← BitVec.toNat_inj, ← BitVec.toNat_inj, sosMm_toNat, BitVec.toNat_ofNat, BitVec.toNat_ofNat]
    omega

/-! ## The decimal logarithm and rounding, in rationals (R9) -/

/-- The rational number that numerator and denominator stand for. -/
def Ratio.toRat (q : Ratio) : ℚ := q.num / q.den

theorem Ratio.toRat_distExact (oscHz v w : Nat) : (distExact oscHz v w).toRat = (v * w : ℚ) / (20 * oscHz : ℚ) := by
  simp [Ratio.toRat, distExact]

theorem lt_ten_pow_log2 (m : Nat) : m < 10 ^ (m.log2 + 1) :=
  Nat.lt_log2_self.trans_le (Nat.pow_le_pow_left (by decide) _)

/-- The decimal logarithm of a quotient of at least 1. -/
theorem ilog10_spec_of_le {q : Ratio} (hden : 0 < q.den) (h : q.den ≤ q.num) :
    (10 : ℚ) ^ ilog10 q ≤ q.toRat ∧ q.toRat < (10 : ℚ) ^ (ilog10 q + 1) := by
  have hdenRat : (0 : ℚ) < q.den := by exact_mod_cast hden
  have hfuel : q.num / q.den < 10 ^ ((q.num / q.den).log2 + 1 + 1) :=
    (lt_ten_pow_log2 _).trans (Nat.pow_lt_pow_succ (by decide))
  obtain ⟨hlow, hhigh⟩ := ilog10Up_spec _ _ (Nat.div_pos h hden) hfuel
  rw [Nat.le_div_iff_mul_le hden] at hlow
  rw [Nat.div_lt_iff_lt_mul hden] at hhigh
  rw [ilog10, if_pos h, Ratio.toRat, le_div_iff₀ hdenRat, div_lt_iff₀ hdenRat]
  exact_mod_cast And.intro hlow hhigh

/-- The decimal logarithm of a positive quotient below 1. -/
theorem ilog10_spec_of_lt {q : Ratio} (hnum : 0 < q.num) (h : q.num < q.den) :
    (10 : ℚ) ^ ilog10 q ≤ q.toRat ∧ q.toRat < (10 : ℚ) ^ (ilog10 q + 1) := by
  have hdenRat : (0 : ℚ) < q.den := by exact_mod_cast hnum.trans h
  have hfuel : q.den ≤ q.num * 10 ^ (q.den.log2 + 1 + 1) :=
    calc q.den ≤ 10 ^ (q.den.log2 + 1 + 1) := ((lt_ten_pow_log2 _).trans (Nat.pow_lt_pow_succ (by decide))).le
      _ ≤ q.num * 10 ^ (q.den.log2 + 1 + 1) := Nat.le_mul_of_pos_left _ hnum
  obtain ⟨hlow, hhigh, hpos⟩ := ilog10Down_spec _ _ _ h hfuel
  obtain ⟨j, hj⟩ := Nat.exists_eq_add_of_le' hpos
  rw [hj] at hlow hhigh
  rw [ilog10, if_neg h.not_ge, hj, Ratio.toRat, le_div_iff₀ hdenRat, div_lt_iff₀ hdenRat, zpow_neg, zpow_natCast,
    inv_mul_le_iff₀ (by positivity), mul_comm, show -((j + 1 : Nat) : Int) + 1 = -(j : Int) by omega, zpow_neg,
    zpow_natCast, lt_inv_mul_iff₀ (by positivity), mul_comm _ (q.num : ℚ)]
  exact_mod_cast And.intro hlow hhigh

/-- `10^ilog10(q) ≤ q < 10^(ilog10(q) + 1)`. -/
theorem ilog10_spec {q : Ratio} (hnum : 0 < q.num) (hden : 0 < q.den) :
    (10 : ℚ) ^ ilog10 q ≤ q.toRat ∧ q.toRat < (10 : ℚ) ^ (ilog10 q + 1) := by
  obtain h | h := le_or_gt q.den q.num
  · exact ilog10_spec_of_le hden h
  · exact ilog10_spec_of_lt hnum h

theorem roundHalfUp_abs_le (num : Nat) {den : Nat} (h : 0 < den) :
    |(roundHalfUp num den : ℚ) - num / den| ≤ 1 / 2 := by
  have hdenRat : (0 : ℚ) < den := by exact_mod_cast h
  obtain ⟨hlow, hhigh⟩ := roundHalfUp_spec num den h
  have hlowRat : (2 * den * roundHalfUp num den : ℚ) ≤ 2 * num + den := by exact_mod_cast hlow
  have hhighRat : (2 * num + den : ℚ) < 2 * den * (roundHalfUp num den + 1) := by exact_mod_cast hhigh
  have hquot : (num / den : ℚ) * den = num := div_mul_cancel₀ _ hdenRat.ne'
  rw [abs_le]
  constructor
  · nlinarith
  · nlinarith

/-- Scaling by a power of ten is exact, so the only error is that of one rounding. -/
theorem scaledRound_abs_le {q : Ratio} (hden : 0 < q.den) (e : Int) :
    |(scaledRound q e : ℚ) - q.toRat / 10 ^ e| ≤ 1 / 2 := by
  unfold scaledRound
  split
  · next h =>
    lift e to Nat using h
    have hround := roundHalfUp_abs_le q.num (den := q.den * 10 ^ e) (by positivity)
    simpa [Ratio.toRat, div_div] using hround
  · next h =>
    obtain ⟨m, rfl⟩ : ∃ m : Nat, e = -m := ⟨e.natAbs, by omega⟩
    have hround := roundHalfUp_abs_le (q.num * 10 ^ m) hden
    simpa [Ratio.toRat, div_mul_eq_mul_div] using hround

/-! ## Significant figures (R235) -/

/-- `d` is `x` rounded to `n` significant figures: `n` digits, within half a unit of the last place. -/
def IsRounding (x : ℚ) (n : Nat) (d : Nat × Int) : Prop :=
  10 ^ (n - 1) ≤ d.1 ∧ d.1 < 10 ^ n ∧ |(d.1 : ℚ) * (10 : ℚ) ^ d.2 - x| ≤ (10 : ℚ) ^ d.2 / 2

/-- Rounding a number of `n` digits before the point gives `n` digits or the carry `10^n`. -/
theorem digits_of_abs_le {x : ℚ} {a b M : Nat} (hlow : (a : ℚ) ≤ x) (hhigh : x < b)
    (h : |(M : ℚ) - x| ≤ 1 / 2) : a ≤ M ∧ M ≤ b := by
  obtain ⟨hbelow, habove⟩ := abs_le.1 h
  constructor
  · have : (a : ℚ) < (M + 1 : Nat) := by push_cast; linarith
    exact Nat.lt_succ_iff.1 (by exact_mod_cast this)
  · have : (M : ℚ) < (b + 1 : Nat) := by push_cast; linarith
    exact Nat.lt_succ_iff.1 (by exact_mod_cast this)

theorem cast_ten_pow_mul_zpow (m : Nat) (e : Int) : ((10 ^ m : Nat) : ℚ) * 10 ^ e = 10 ^ (m + e) := by
  rw [Nat.cast_pow, zpow_add₀ (by norm_num), zpow_natCast, Nat.cast_ofNat]

/-- Before the carry: `q` over its last place has `n` digits before the point, and rounding
keeps them or reaches `10^n`. -/
theorem scaledRound_digits {q : Ratio} {n : Nat} (hnum : 0 < q.num) (hden : 0 < q.den) (hn : 1 ≤ n) :
    10 ^ (n - 1) ≤ scaledRound q (ilog10 q - n + 1) ∧ scaledRound q (ilog10 q - n + 1) ≤ 10 ^ n := by
  obtain ⟨hlow, hhigh⟩ := ilog10_spec hnum hden
  have hunit : (0 : ℚ) < 10 ^ (ilog10 q - n + 1) := by positivity
  refine digits_of_abs_le ?_ ?_ (scaledRound_abs_le hden _)
  · rw [le_div_iff₀ hunit, cast_ten_pow_mul_zpow,
      show ((n - 1 : Nat) : Int) + (ilog10 q - n + 1) = ilog10 q by omega]
    exact hlow
  · rw [div_lt_iff₀ hunit, cast_ten_pow_mul_zpow, show (n : Int) + (ilog10 q - n + 1) = ilog10 q + 1 by omega]
    exact hhigh

/-- The error of a rounding, measured in the number itself: half a unit of the last place. -/
theorem scaledRound_error {q : Ratio} (hden : 0 < q.den) (e : Int) :
    |(scaledRound q e : ℚ) * 10 ^ e - q.toRat| ≤ (10 : ℚ) ^ e / 2 := by
  have hunit : (0 : ℚ) < 10 ^ e := by positivity
  have hscale : (scaledRound q e : ℚ) * 10 ^ e - q.toRat = (scaledRound q e - q.toRat / 10 ^ e) * 10 ^ e := by
    rw [sub_mul, div_mul_cancel₀ _ hunit.ne']
  rw [hscale, abs_mul, abs_of_pos hunit]
  linarith [mul_le_mul_of_nonneg_right (scaledRound_abs_le hden e) hunit.le]

/-- `RoundSig` rounds; a carry to `10^n` is the same number one place up, where the half unit is larger. -/
theorem roundSig_isRounding {q : Ratio} {n : Nat} (hnum : 0 < q.num) (hden : 0 < q.den) (hn : 1 ≤ n) :
    IsRounding q.toRat n (roundSig q n) := by
  obtain ⟨hlow, hhigh⟩ := scaledRound_digits hnum hden hn
  have herror := scaledRound_error hden (ilog10 q - n + 1)
  rw [roundSig, if_neg hnum.ne']
  split
  · next hcarry =>
    have hsame : ((10 ^ (n - 1) : Nat) : ℚ) * 10 ^ (ilog10 q - n + 2) = (10 ^ n : Nat) * 10 ^ (ilog10 q - n + 1) := by
      rw [cast_ten_pow_mul_zpow, cast_ten_pow_mul_zpow]
      congr 1
      omega
    have hlarger : (10 : ℚ) ^ (ilog10 q - n + 1) ≤ 10 ^ (ilog10 q - n + 2) :=
      zpow_le_zpow_right₀ (by norm_num) (by omega)
    rw [hcarry] at herror
    refine ⟨le_rfl, Nat.pow_lt_pow_right (by decide) (Nat.sub_lt hn one_pos), ?_⟩
    rw [hsame]
    linarith
  · next hfits => exact ⟨hlow, lt_of_le_of_ne hhigh hfits, herror⟩

theorem distSig_isRounding {oscHz v w n : Nat} (hosc : 1 ≤ oscHz) (hv : 1 ≤ v) (hw : 1 ≤ w) (hn : 1 ≤ n) :
    IsRounding ((v * w : ℚ) / (20 * oscHz : ℚ)) n (distSig oscHz v w n) := by
  rw [← Ratio.toRat_distExact]
  exact roundSig_isRounding (Nat.mul_pos hv hw) (Nat.mul_pos (by decide) hosc) hn

/-- Settles O53: the distance of a pulse is one of the rationals. -/
theorem roundingIsNearest : Obligations.RoundingIsNearest :=
  ⟨fun _ _ hnum hden hn _ => roundSig_isRounding hnum hden hn,
    fun _ _ _ _ hosc hv hw hn _ => distSig_isRounding hosc hv hw hn⟩

/-! ## The range of the exponent (R235) -/

/-- The unit of the last place is at most twice the number. -/
theorem IsRounding.exponent_lt {x : ℚ} {n : Nat} {d : Nat × Int} (h : IsRounding x n d) {k : Int}
    (hx : 2 * x < 10 ^ k) : d.2 < k := by
  obtain ⟨hdigits, -, herror⟩ := h
  have hunit : (0 : ℚ) < 10 ^ d.2 := by positivity
  have hone : (1 : ℚ) ≤ d.1 := by exact_mod_cast Nat.one_le_pow _ _ (by decide) |>.trans hdigits
  have hvalue := mul_le_mul_of_nonneg_right hone hunit.le
  have hbelow := (abs_le.1 herror).2
  exact (zpow_lt_zpow_iff_right₀ (by norm_num : (1 : ℚ) < 10)).1 (by linarith)

/-- `n` digits reach past the number. -/
theorem IsRounding.lt_exponent {x : ℚ} {n : Nat} {d : Nat × Int} (h : IsRounding x n d) {k : Int}
    (hx : 10 ^ k < x) : k < n + d.2 := by
  obtain ⟨-, hdigits, herror⟩ := h
  have hunit : (0 : ℚ) < 10 ^ d.2 := by positivity
  have hnext : (d.1 + 1 : ℚ) ≤ 10 ^ n := by exact_mod_cast hdigits
  have hvalue := mul_le_mul_of_nonneg_right hnext hunit.le
  have habove := (abs_le.1 herror).1
  refine (zpow_lt_zpow_iff_right₀ (by norm_num : (1 : ℚ) < 10)).1 ?_
  rw [← cast_ten_pow_mul_zpow]
  push_cast
  linarith

/-- A distance's exponent, from powers of ten on both sides of the distance. -/
theorem distSig_exponent {oscHz v w n lo hi : Nat} (hosc : 1 ≤ oscHz) (hv : 1 ≤ v) (hw : 1 ≤ w) (hn : 1 ≤ n)
    (hlo : 20 * oscHz < 10 ^ lo * (v * w)) (hhi : 2 * (v * w) < 10 ^ hi * (20 * oscHz)) :
    -(lo : Int) < n + (distSig oscHz v w n).2 ∧ (distSig oscHz v w n).2 < hi := by
  have hrounding := distSig_isRounding hosc hv hw hn
  have hden : (0 : ℚ) < 20 * oscHz := by exact_mod_cast Nat.mul_pos (by decide) hosc
  constructor
  · refine hrounding.lt_exponent ?_
    rw [zpow_neg, zpow_natCast, lt_div_iff₀ hden, inv_mul_lt_iff₀ (by positivity)]
    exact_mod_cast hlo
  · refine hrounding.exponent_lt ?_
    rw [zpow_natCast, ← mul_div_assoc, div_lt_iff₀ hden]
    exact_mod_cast hhi

theorem distSig_digits_lt {oscHz v w n : Nat} (hosc : 1 ≤ oscHz) (hv : 1 ≤ v) (hw : 1 ≤ w) (hn : 1 ≤ n)
    (hn9 : n ≤ 9) : (distSig oscHz v w n).1 < 10 ^ 9 := by
  obtain ⟨-, hdigits, -⟩ := distSig_isRounding hosc hv hw hn
  exact hdigits.trans_le (Nat.pow_le_pow_right (by decide) hn9)

/-- An exponent that fits `REXP` reads back as it is. -/
theorem fitRexp_toInt {e : Int} (h : -128 ≤ e ∧ e ≤ 127) : (fitRexp e).toInt = e := by
  rw [fitRexp_eq h]
  exact BitVec.toInt_ofInt_eq_self (by decide) h.1 (by omega)

/-- Settles O54: a distance lies between `10^-9` and `10^17 / 2` cm at 25 MHz, and between `10^-11` and `10^28 / 2` cm
at every clock below 2^32 Hz. -/
theorem distanceFitsResponse : Obligations.DistanceFitsResponse := by
  refine ⟨fun v w n hv hvmax hw hwmax hn hn9 => ?atDefaultClock,
    fun oscHz v w n hosc hoscmax hv hvmax hw hwmax hn hn9 => ?atAnyClock⟩
  case atDefaultClock =>
    have hone : 1 ≤ v * w := Nat.mul_pos hv hw
    have hmax : v * w ≤ 513276 * 2 ^ 64 := Nat.mul_le_mul hvmax hwmax.le
    obtain ⟨hlow, hhigh⟩ := distSig_exponent (oscHz := 25000000) (lo := 9) (hi := 17) (by decide) hv hw hn (by omega)
      (by omega)
    exact ⟨distSig_digits_lt (by decide) hv hw hn hn9, by omega, by omega⟩
  case atAnyClock =>
    have hone : 1 ≤ v * w := Nat.mul_pos hv hw
    have hmax : v * w ≤ 2 ^ 32 * 2 ^ 64 := Nat.mul_le_mul hvmax.le hwmax.le
    obtain ⟨hlow, hhigh⟩ := distSig_exponent (lo := 11) (hi := 28) hosc hv hw hn (by omega) (by omega)
    exact ⟨distSig_digits_lt hosc hv hw hn hn9, fitRexp_toInt (by omega)⟩

end Sys2Proof.Machine
end

section
/-! PROOFS. The host's steering routine (44_steering_host.md R262 to R267): what a call of `move` or of teardown issues,
and how the host goes on with each answer. -/

namespace Sys2Proof.Machine

open Sys2Proof

section steering

variable {nch : Nat} {h : SteeringHost nch} {cfg : SteeringConfig nch} {r : Resp} {cmd : Instr} {rest : List Instr}

theorem Resp.steeringError_range (hr : r.rstat = 2) : r.steeringError = some (.rangeError r.rval) := by
  simp [Resp.steeringError, hr, statusCode]

/-! ## The plan of `move` (R262 to R266) -/

theorem movePlan_stop {m : Maneuver} {reversing : Bool} {duty : BitVec 16} (hstop : duty = 0 ∨ m = .emergencyBrake) :
    movePlan cfg m reversing duty = .stop cfg.stopAll := if_pos hstop

/-- The maneuvers with a row in the table are driven; emergency-brake has none. -/
theorem movePlan_drive {m : Maneuver} {reversing : Bool} {duty : BitVec 16} {w : Wheels} (hduty : duty ≠ 0)
    (hrow : steeringDir m reversing = some w) :
    movePlan cfg m reversing duty = .drive (w.mounted cfg.reverseMounted) (cfg.drive duty) := by
  have hbrake : m ≠ .emergencyBrake := by
    rintro rfl
    cases hrow
  simp only [movePlan, if_neg (not_or.2 ⟨hduty, hbrake⟩), hrow]

theorem movePlan_maintainLane {reversing : Bool} {duty : BitVec 16} (hduty : duty ≠ 0) :
    movePlan cfg .maintainLane reversing duty = .fail .unimplementedCapability :=
  if_neg (not_or.2 ⟨hduty, nofun⟩)

/-! ## A call of `move`, and the answer to its BOUND (R264) -/

section move

variable (speed : Int) (m : Maneuver) (reversing : Bool) (hidle : h.task = .idle) (hpins : h.claimed = h.cfg.pins)

include hidle hpins

theorem SteeringHost.move_eq : h.move speed m reversing
    = { h with task := .bounding speed m (reversing || decide (speed < 0)), error := none } :=
  if_pos ⟨hidle, hpins⟩

theorem SteeringHost.move_command :
    (h.move speed m reversing).command = some (.bound (BitVec.ofNat 32 speed.natAbs)) := by
  rw [move_eq speed m reversing hidle hpins]
  rfl

/-- An error answer to BOUND leaves the pins and the channels as they were. -/
theorem SteeringHost.move_receive_error {e : SteeringError} (he : r.steeringError = some e) :
    (h.move speed m reversing).receive r = { h with task := .idle, error := some e } := by
  rw [move_eq speed m reversing hidle hpins]
  exact receive_error nofun he

theorem SteeringHost.move_receive_duty (hr : r.rstat = 0) :
    (h.move speed m reversing).receive r = { h with
        task := .bounding speed m (reversing || decide (speed < 0)), error := none }.carryOut
      (movePlan h.cfg m (reversing || decide (speed < 0)) (r.rval.setWidth 16)) := by
  rw [move_eq speed m reversing hidle hpins]
  exact receive_duty rfl (Resp.steeringError_ok hr)

theorem SteeringHost.move_drives {duty : BitVec 16} {w : Wheels} (hduty : duty ≠ 0)
    (hrow : steeringDir m (reversing || decide (speed < 0)) = some w) (hr : r.rstat = 0)
    (hval : r.rval = duty.setWidth 32) :
    (h.move speed m reversing).receive r = { h with
      dirs := some (w.mounted h.cfg.reverseMounted)
      task := .programming (.setduty h.cfg.chFL duty)
        [.setduty h.cfg.chFR duty, .setduty h.cfg.chRL duty, .setduty h.cfg.chRR duty]
      error := none } := by
  have hread : r.rval.setWidth 16 = duty := by
    rw [hval, BitVec.setWidth_setWidth_of_le _ (by decide), BitVec.setWidth_eq]
  rw [move_receive_duty speed m reversing hidle hpins hr, hread, movePlan_drive hduty hrow]
  rfl

theorem SteeringHost.move_stops (hr : r.rstat = 0) (hstop : r.rval = 0 ∨ m = .emergencyBrake) :
    (h.move speed m reversing).receive r = { h with
      task := .programming (.setduty h.cfg.chFL 0)
        [.setduty h.cfg.chFR 0, .setduty h.cfg.chRL 0, .setduty h.cfg.chRR 0]
      error := none } := by
  have hplan : r.rval.setWidth 16 = 0 ∨ m = .emergencyBrake := hstop.imp_left fun h0 => by rw [h0]; rfl
  rw [move_receive_duty speed m reversing hidle hpins hr, movePlan_stop hplan]
  rfl

theorem SteeringHost.move_maintainLane (hr : r.rstat = 0) (hduty : r.rval.setWidth 16 ≠ 0#16) :
    (h.move speed .maintainLane reversing).receive r
      = { h with task := .idle, error := some .unimplementedCapability } := by
  rw [move_receive_duty speed .maintainLane reversing hidle hpins hr, movePlan_maintainLane hduty]
  rfl

end move

/-! ## Teardown (R267) -/

theorem SteeringHost.teardown_eq (hidle : h.task = .idle) (hpins : h.claimed = h.cfg.pins) :
    h.teardown = { h with
      task := .stopping (.setduty h.cfg.chFL 0)
        [.setduty h.cfg.chFR 0, .setduty h.cfg.chRL 0, .setduty h.cfg.chRR 0]
      error := none } :=
  if_pos ⟨hidle, hpins⟩

theorem SteeringHost.stopping_next {c : Instr} (ht : h.task = .stopping cmd (c :: rest)) (hr : r.rstat = 0) :
    h.receive r = { h with task := .stopping c rest } :=
  receive_stopped ht (Resp.steeringError_ok hr)

/-- The OK of teardown's last command releases the pins. -/
theorem SteeringHost.stopping_last (ht : h.task = .stopping cmd []) (hr : r.rstat = 0) :
    h.receive r = { h with claimed := [], task := .idle, error := none } :=
  receive_stopped ht (Resp.steeringError_ok hr)

end steering

/-- Settles O60: each clause is the lemma about its call and its answer. -/
theorem moveDrivesAllWheelsAlike : Obligations.MoveDrivesAllWheelsAlike := by
  refine ⟨by decide, fun nch h speed m reversing duty w r hidle hpins hduty hrow hr hval => ?drives,
    fun nch h speed m reversing r hidle hpins => ⟨fun hr => ?rangeError, fun hr hstop => ?stops,
      fun hr hduty hlane => ?maintainLane⟩,
    fun nch h cmd rest r ht => ⟨fun hr => ?transportError, fun hr => ?goesOn⟩,
    fun nch h r₁ r₂ r₃ r₄ hidle hpins hok => ?teardown⟩
  case drives =>
    exact ⟨SteeringHost.move_command speed m reversing hidle hpins,
      SteeringHost.move_drives speed m reversing hidle hpins hduty hrow hr hval⟩
  case rangeError => exact SteeringHost.move_receive_error speed m reversing hidle hpins (Resp.steeringError_range hr)
  case stops => exact SteeringHost.move_stops speed m reversing hidle hpins hr hstop
  case maintainLane =>
    subst hlane
    exact SteeringHost.move_maintainLane speed reversing hidle hpins hr hduty
  case transportError => exact SteeringHost.receive_error (by rw [ht]; nofun) (Resp.steeringError_transport hr)
  case goesOn =>
    rw [SteeringHost.receive_programmed ht (Resp.steeringError_ok hr)]
    cases rest with
    | nil => rfl
    | cons c l => rfl
  case teardown =>
    simp only [List.mem_cons, List.not_mem_nil, or_false, forall_eq_or_imp, forall_eq] at hok
    obtain ⟨h₁, h₂, h₃, h₄⟩ := hok
    rw [SteeringHost.teardown_eq hidle hpins, SteeringHost.stopping_next rfl h₁, SteeringHost.stopping_next rfl h₂,
      SteeringHost.stopping_next rfl h₃, SteeringHost.stopping_last rfl h₄]
    exact ⟨rfl, rfl, rfl, rfl, rfl, rfl, rfl⟩

end Sys2Proof.Machine
end

section
/-! PROOFS. The errors raised at acceptance (60_exceptions.md R287 to R291): when a command is refused, and that a refusal
is precise. -/

namespace Sys2Proof.Machine

open Sys2Proof

/-! ## When a command is refused (R287 to R289) -/

theorem prescFits_iff (k : Int) : prescFits k = true ↔ 0 ≤ k ∧ k ≤ 255 := by
  simp only [prescFits, Bool.and_eq_true, decide_eq_true_eq]

/-- The refusing branch of R125; `execCfgfreq_fits` is the other. -/
theorem execCfgfreq_refused {s : State} {freq : BitVec 16}
    (h : presc s.params.oscHz freq.toNat < 0 ∨ 255 < presc s.params.oscHz freq.toNat) :
    execCfgfreq freq s = .next (s.raise .prescaleRange (BitVec.ofInt 32 (presc s.params.oscHz freq.toNat))) :=
  if_neg (by rw [prescFits_iff]; omega)

/-- Settles O15: the prescale does not fit its byte. -/
theorem cfgfreqOutOfRangeRefused : Obligations.CfgfreqOutOfRangeRefused := fun _ _ h => execCfgfreq_refused h

/-- The refusing branch of R130. -/
theorem programChannel_refused {s : State} {ch : BitVec 8} (h : s.params.nch ≤ ch.toNat) (off on : BitVec 16) :
    programChannel ch off on s = .next (s.raise .channelRange (ch.setWidth 32)) :=
  if_neg (Nat.not_lt.2 h)

/-- Settles O23: the channel check comes first in the acceptance that the three commands share. -/
theorem channelOutOfRangeRefused : Obligations.ChannelOutOfRangeRefused := by
  intro s ch x y hch i hi
  simp only [List.mem_cons, List.not_mem_nil, or_false] at hi
  obtain rfl | rfl | rfl := hi
  · exact programChannel_refused hch x y
  · exact programChannel_refused hch x 0
  · exact programChannel_refused hch (servoSteps x) 0

theorem execMeasure_notConfigured {s : State} (h : s.seq.usReady = false) (nsig : BitVec 8) :
    execMeasure nsig s = .next (s.raise .notConfigured 0) :=
  if_neg (Bool.eq_false_iff.1 h)

theorem execUsrel_notConfigured {s : State} (h : s.seq.usReady = false) :
    execUsrel s = .next (s.raise .notConfigured 0) :=
  if_neg (Bool.eq_false_iff.1 h)

/-- Settles O36: both commands check the construction before anything else. -/
theorem notConfiguredRefused : Obligations.NotConfiguredRefused := by
  intro s nsig hready i hi
  simp only [List.mem_cons, List.not_mem_nil, or_false] at hi
  obtain rfl | rfl := hi
  · exact execMeasure_notConfigured hready nsig
  · exact execUsrel_notConfigured hready

/-! ## A refusal is precise (R290, R291) -/

/-- The three ways an acceptance ends: with an error, with an OK, or in a busy phase. `Accepted` says what the last two
write; here an error is known to be a bare `raise`. -/
inductive Concluded (s : State) : State → Prop where
  /-- The command is refused. -/
  | refused (st : Status) (info : BitVec 32) : Concluded s (s.raise st info)
  /-- The command is carried out at once. -/
  | done (u : State) (hok : u.resp.rstat = 0) : Concluded s u
  /-- The command goes on in later ticks. -/
  | busy (u : State) (hphase : u.phase ≠ .idle) : Concluded s u

theorem Concluded.of_programChannel {s u : State} {ch : BitVec 8} {off on : BitVec 16}
    (h : programChannel ch off on s = .next u) : Concluded s u := by
  obtain ⟨-, heq⟩ | ⟨-, heq⟩ := programChannel_cases ch off on s
  · cases heq.symm.trans h
    exact .busy _ nofun
  · cases heq.symm.trans h
    exact .refused ..

theorem Concluded.of_execUscfg {s u : State} {minCm maxCm : BitVec 16} {strict : Bool}
    (h : execUscfg minCm maxCm strict s = .next u) : Concluded s u := by
  unfold execUscfg at h
  split_ifs at h
  · cases h; exact .refused ..
  · cases h; exact .refused ..
  · cases h; exact .refused ..
  · cases h; exact .done _ rfl

theorem Concluded.of_execMeasure {s u : State} {nsig : BitVec 8} (h : execMeasure nsig s = .next u) :
    Concluded s u := by
  cases hready : s.seq.usReady with
  | false =>
    cases (execMeasure_notConfigured hready nsig).symm.trans h
    exact .refused ..
  | true =>
    unfold execMeasure at h
    rw [if_pos hready] at h
    split_ifs at h
    · cases h; exact .busy _ nofun
    · cases h; exact .busy _ nofun

/-- Every acceptance ends in one of the three ways. -/
theorem concluded_of_exec {i : Instr} {s u : State} (h : exec i s = .next u) : Concluded s u := by
  cases i with
  | cfgfreq freq =>
    replace h : execCfgfreq freq s = .next u := h
    unfold execCfgfreq at h
    split_ifs at h
    · cases h; exact .busy _ nofun
    · cases h; exact .refused ..
  | bound value =>
    replace h : execBound value s = .next u := h
    unfold execBound at h
    split_ifs at h
    · cases h; exact .refused ..
    · cases h; exact .done _ rfl
  | setpwm ch off on => exact .of_programChannel h
  | setduty ch duty => exact .of_programChannel h
  | setservo ch pulseUs => exact .of_programChannel h
  | regwr reg byte => cases h; exact .busy _ nofun
  | regrd reg => cases h; exact .busy _ nofun
  | uscfg minCm maxCm strict => exact .of_execUscfg h
  | measure nsig => exact .of_execMeasure h
  | usrel =>
    cases hready : s.seq.usReady with
    | false =>
      cases (execUsrel_notConfigured hready).symm.trans h
      exact .refused ..
    | true =>
      cases (if_pos hready : execUsrel s = .next _).symm.trans h
      exact .done _ rfl
  | sos tempCk => cases h; exact .done _ rfl

/-- Raising an error in `IDLE` writes the response registers and nothing else (R290). -/
theorem State.raise_of_idle {s : State} (hidle : s.phase = .idle) (st : Status) (info : BitVec 32) :
    s.raise st info = { s with resp := (s.raise st info).resp } := by
  cases s
  cases hidle
  rfl

/-- Settles O34: an acceptance that ends idle and not OK is a `raise`. -/
theorem acceptanceErrorsArePrecise : Obligations.AcceptanceErrorsArePrecise := by
  intro i s t hidle hexec hend herr
  cases concluded_of_exec hexec with
  | refused st info => exact ⟨State.raise_of_idle hidle st info, rfl, rfl, rfl⟩
  | done _ hok => exact absurd hok herr
  | busy _ hphase => exact absurd hend hphase

end Sys2Proof.Machine
end


section
/-! PROOFS. The outputs after reset (70_reset_and_hazards.md R311, R312): they are low because no channel register is
set, whatever the counters and `PRESCALE` are, and an idle tick sets none. -/

namespace Sys2Proof.Machine

open Sys2Proof

/-! ## Pins at rest -/

/-- What keeps the pins of R312 still: no channel register set, sound timing, the trigger released, nothing in flight
and no response shown. It leaves `PRESCALE`, `PSC` and `STEP` open, so an idle tick keeps it. -/
structure AtRest (s : State) : Prop where
  chreg : s.ctl.chreg = []
  sound : s.ctl.timingCorrupt = false
  trigMode : s.seq.trigMode = .hiz
  idle : s.phase = .idle
  noResp : s.resp.valid = false

theorem atRest_resetWith (p : Config.Params) (e : Env) (x : Byte) : AtRest (State.resetWith p e x) :=
  ⟨rfl, rfl, rfl, rfl, rfl⟩

/-- With no channel register set, both steps of every channel are 0 (R30). -/
theorem Ctl.steps_of_chreg_nil {c : Ctl} (h : c.chreg = []) (p : Config.Params) (ch : Nat) :
    c.onStep p ch = 0 ∧ c.offStep p ch = 0 := by
  have hblank : join16 Memory.blank Memory.blank = 0 := by decide
  rw [Ctl.onStep, Ctl.offStep, h]
  exact ⟨hblank, hblank⟩

/-- Equal steps are low at every counter value (R167), so the unknown `PRESCALE` does not matter. -/
theorem AtRest.pwmOut {s : State} (h : AtRest s) (ch : Nat) : s.pwmOut ch = false := by
  obtain ⟨hon, hoff⟩ := Ctl.steps_of_chreg_nil h.chreg s.params ch
  rw [State.pwmOut_eq_comparator h.sound (by simp [hon]) (by simp [hoff]), hon, hoff]
  exact comparator_self _ _

/-- The outputs of R312. -/
theorem AtRest.pins {s : State} (h : AtRest s) :
    (∀ ch, s.pwmOut ch = false) ∧ s.seq.trigPin = none ∧ s.cmdReady = true ∧ s.respValid = false :=
  ⟨h.pwmOut, by rw [Seq.trigPin, h.trigMode], by rw [State.cmdReady, h.idle]; rfl, h.noResp⟩

/-! ## An idle tick -/

/-- With nothing in flight and nothing presented, the step is the divider and the clock edge. -/
theorem step_quiet {s : State} (hrun : s.running) (hidle : s.phase = .idle) (hnone : s.inputs.cmdValid = false) :
    step s = .next s.dividerTick.clockEdge := by
  obtain ⟨u, hu⟩ := s.dividerTick.commandTick_next
  cases tickRule_of_commandTick hu with
  | accept i hpres hacc =>
    obtain ⟨-, hvalid, -⟩ := hpres
    exact absurd (hvalid.symm.trans hnone) (by decide)
  | illegal _ hvalid => exact absurd (hvalid.symm.trans hnone) (by decide)
  | quiet => exact step_running hrun hu
  | busy hbusy hrule => exact absurd hidle hbusy

/-- The divider and the clock edge write the counters only. -/
theorem AtRest.quietTick {s : State} (h : AtRest s) : AtRest s.dividerTick.clockEdge where
  chreg := by simp [h.chreg]
  sound := by simp [h.sound]
  trigMode := h.trigMode
  idle := h.idle
  noResp := h.noResp

/-- Settles O10: the reset state is at rest, and an idle tick keeps it so. -/
theorem resetPinsAreSafe : Obligations.ResetPinsAreSafe := by
  rintro p e x hok s rfl
  have hrest := atRest_resetWith p e x
  refine ⟨hrest.pins, fun hrst hnone => ⟨_, ?idleTick, hrest.quietTick.pins⟩⟩
  case idleTick => exact step_quiet ⟨hok, hrst⟩ hrest.idle hnone

end Sys2Proof.Machine
end
